-- ==== Sys2Proof/Word.lean ====
section
/-! DEFINITION. The word and byte types of the block (spec 00_scope R7, R11: 32-bit words, 8-bit bytes, all unsigned). -/

namespace Sys2Proof

/-- A 32-bit word: command and event words, operand words, ticks, offsets (R7, R11, R12). -/
abbrev Word := BitVec 32

/-- One byte of a payload or of the frame-buffer store (R60, R61). -/
abbrev Byte := BitVec 8

end Sys2Proof
end

