-- ==== Sys2Proof/Config.lean ====
section
/-! DEFINITION. What an implementation fixes (spec 00_scope R6, 92_eei_decisions: the OPEN parameters) and the free values
the spec leaves open (93_implementation_defined U1 to U3). Constants without a body: no proof can see a value of them. -/

namespace Sys2Proof

namespace Config

/-! Raw, unconstrained constants. `Config.params` turns them into parameters that meet the constraints of R6; every
combination of parameter values R6 allows is the image of some raw values (log 1). -/

opaque rawNmax : Nat
opaque rawCap : Nat
opaque rawPktPix : Nat
opaque rawPixBytes : Nat
opaque rawSegPkts : Nat
opaque rawSpecialPid : Nat
opaque dcMask : BitVec 16
opaque dcMatch : BitVec 16
opaque rawResync : Nat
opaque rawNch : Nat
opaque rawDmaRetry : Nat
opaque minDmaStride : Nat
opaque rawDmaLenAlign : Nat
opaque rawLinebufCap : Nat
opaque rawBppGray : Nat
opaque rawBppRgb : Nat
opaque rawBppYuv : Nat
opaque rawBppBayer : Nat

/-- `CHECK` (R6, D31): the packet integrity function, of which nothing is assumed but that it depends on the packet
bytes only. Log 5. -/
opaque check : List Byte → Bool

/-- What `SUBFMT_SHIFT` (R266, D56, U3) gives where its two identity laws are silent: pixel format code, sub-format id,
crop origin `x`, `y`, transpose. Log 6. -/
opaque phaseShift : BitVec 3 → BitVec 8 → BitVec 16 → BitVec 16 → Bool → BitVec 8

/-- The byte of buffer `i` at offset `off` that no step has written since power-on (R24, U1). Log 3. -/
opaque powerOnByte : Nat → Nat → Byte

/-- The `n`-th free byte drawn: a byte of the destination of a cancelled transfer (R226, U2). Log 4. -/
opaque freeByte : Nat → Byte

/-- The free size of a JPEG frame without an end-of-image marker, a case no run reaches (R265). Log 16. -/
opaque freeSize : Nat → Word

/-- Bytes per pixel of a pixel-format code that has none (R101), a case no run reaches. Log 25. -/
opaque bppOfNoFormat : BitVec 3 → Nat

end Config

/-- The implementation parameters of R6 that are plain numbers. `HDR`, `SEG_BASE` and `TICK_BITS` are fixed by decision
(D21, D22, D48) and stand in Operands. -/
structure Params where
  /-- `NMAX`: number of physical buffers built. -/
  nmax : Nat
  /-- `CAP`: bytes of one buffer. -/
  cap : Nat
  /-- `P`: payload pixels per packet. -/
  pktPix : Nat
  /-- `PB`: bytes per serial pixel. -/
  pixBytes : Nat
  /-- `S`: packets per segment. -/
  segPkts : Nat
  /-- `K_SPECIAL`: the packet id that carries the segment id. -/
  specialPid : Nat
  /-- `DC_MASK`: mask of the don't-care pattern. -/
  dcMask : BitVec 16
  /-- `DC_MATCH`: value of the don't-care pattern. -/
  dcMatch : BitVec 16
  /-- `T_RESYNC`: resync delay, milliseconds. -/
  resync : Nat
  /-- `NCH`: number of DMA channel handles. -/
  nch : Nat
  /-- `DMA_RETRY`: submission attempts per line. -/
  dmaRetry : Nat
  /-- `MIN_DMA_STRIDE`: destination stride below which DMA is skipped. -/
  minDmaStride : Nat
  /-- `DMA_LEN_ALIGN`: DMA length alignment. -/
  dmaLenAlign : Nat
  /-- `LINEBUF_CAP`: hardware line-buffer capacity. -/
  linebufCap : Nat
  /-- `BPP(GRAYSCALE)`. -/
  bppGray : Nat
  /-- `BPP(RGB)`. -/
  bppRgb : Nat
  /-- `BPP(YUV)`. -/
  bppYuv : Nat
  /-- `BPP(BAYER)`. -/
  bppBayer : Nat
  deriving DecidableEq, Repr

/-- The constraints of R6 on the parameters, with the bound of R347 on `T_RESYNC`. -/
def Params.valid (p : Params) : Bool :=
  decide (1 ≤ p.nmax) && decide (1 ≤ p.cap) && decide (p.cap < 2 ^ 32) && decide (1 ≤ p.pktPix) &&
  decide (1 ≤ p.pixBytes) && decide (1 ≤ p.segPkts) && decide (p.segPkts ≤ 4095) &&
  decide (p.specialPid < p.segPkts) && decide (1 ≤ p.resync) && decide (p.resync < 2 ^ 32) &&
  decide (1 ≤ p.nch) && decide (p.nch ≤ 256) && decide (1 ≤ p.dmaRetry) && decide (p.dmaRetry ≤ 8) &&
  decide (1 ≤ p.dmaLenAlign) && decide (p.linebufCap ≤ 65535) && decide (1 ≤ p.bppGray) &&
  decide (1 ≤ p.bppRgb) && decide (1 ≤ p.bppYuv) && decide (1 ≤ p.bppBayer)

/-- The parameters of the block built: any parameters that R6 allows. -/
def Config.params : Params where
  nmax := 1 + rawNmax
  cap := 1 + rawCap % (2 ^ 32 - 1)
  pktPix := 1 + rawPktPix
  pixBytes := 1 + rawPixBytes
  segPkts := 1 + rawSegPkts % 4095
  specialPid := rawSpecialPid % (1 + rawSegPkts % 4095)
  dcMask := dcMask
  dcMatch := dcMatch
  resync := 1 + rawResync % (2 ^ 32 - 1)
  nch := 1 + rawNch % 256
  dmaRetry := 1 + rawDmaRetry % 8
  minDmaStride := minDmaStride
  dmaLenAlign := 1 + rawDmaLenAlign
  linebufCap := rawLinebufCap % 65536
  bppGray := 1 + rawBppGray
  bppRgb := 1 + rawBppRgb
  bppYuv := 1 + rawBppYuv
  bppBayer := 1 + rawBppBayer

end Sys2Proof
end

