-- ==== Sys2Proof/Syntax.lean ====
section
/-! DEFINITION. The inputs of the block as instructions: one constructor per row of spec/opcode_table.json
(30_encoding R93, R95; 92_eei_decisions D2: instruction = command or event). -/

namespace Sys2Proof

/-- The context of the port an input arrives on, bit 31 of its word (R90, R311). -/
inductive Ctx where
  | thread
  | interrupt
  deriving DecidableEq, Repr

/-- The opcodes of R93 and R95. `EV_LINE` is one opcode with two meanings (R109). -/
inductive Opcode where
  | setupBuffers | acquire | release | getHead | getTail | resetBuf | readable | freeCurrent
  | init | deinit | abort | active | snapshot
  | evPkt | evSof | evLine | evDmaDone | evPoll
  deriving DecidableEq, Repr

/-- A decoded command or event. `flags` is the flag byte of R92; the other operands of a step (`OPW`, `NOW`, `PAY`,
the configuration port) arrive beside the word (R11) and stand in the state's `port`. -/
inductive Instr where
  /-- `SETUP_BUFFERS` (R131). -/
  | setupBuffers
  /-- `ACQUIRE` (R132). -/
  | acquire (flags : BitVec 8)
  /-- `RELEASE` (R133). -/
  | release (flags : BitVec 8)
  /-- `GET_HEAD` (R135). -/
  | getHead (flags : BitVec 8)
  /-- `GET_TAIL` (R136). -/
  | getTail (flags : BitVec 8)
  /-- `RESET_BUF` (R137). -/
  | resetBuf (idx : BitVec 8)
  /-- `READABLE`, from either context (R138). -/
  | readable (ctx : Ctx)
  /-- `FREE_CURRENT` (R139). -/
  | freeCurrent
  /-- `INIT` (R250). -/
  | init
  /-- `DEINIT` (R253). -/
  | deinit
  /-- `ABORT` (R254). -/
  | abort
  /-- `ACTIVE`, from either context (R255). -/
  | active (ctx : Ctx)
  /-- `SNAPSHOT` (R256). -/
  | snapshot (flags : BitVec 8)
  /-- `EV_PKT` (R161). -/
  | evPkt
  /-- `EV_SOF` with the throttle's verdict (R183, R196). -/
  | evSof (throttleDrop : Bool)
  /-- `EV_LINE` in raster mode with the DMA engine's answers (R184). -/
  | evLineRaster (busyMask : BitVec 8)
  /-- `EV_LINE` in JPEG mode; the mask is carried and ignored (R190). -/
  | evLineJpeg (busyMask : BitVec 8)
  /-- `EV_DMA_DONE` of a channel handle (R194). -/
  | evDmaDone (ch : BitVec 8)
  /-- `EV_POLL` (R267). -/
  | evPoll
  deriving DecidableEq, Repr

end Sys2Proof
end

