-- ==== Sys2Proof/Machine/Flags.lean ====
section
/-! DEFINITION. The flag byte of 30_encoding R92: its bits, the bits each operation accepts and requires (R93, R107), and
the stored flags `bflags` (10_state R23). -/

namespace Sys2Proof.Machine

/-! Bits of the flag byte (R92). Bits 7:6 are reserved and accepted by no operation. -/

def flagOverflow : BitVec 8 := 0x01#8
def flagInvalidate : BitVec 8 := 0x02#8
def flagCheckLast : BitVec 8 := 0x04#8
def flagFree : BitVec 8 := 0x08#8
def flagPeek : BitVec 8 := 0x10#8
def flagNonblock : BitVec 8 := 0x20#8

/-- `f in flags` of the pseudocode (R91: the flag byte is used as a bit set). -/
def hasFlag (flags f : BitVec 8) : Bool := flags &&& f != 0#8

/-- The flag bits an operation accepts (R93). Commands without flags accept none. -/
def acceptedFlags : Opcode → BitVec 8
  | .acquire => flagFree ||| flagPeek
  | .release => flagCheckLast
  | .getHead => flagPeek
  | .getTail => flagPeek
  | .snapshot => flagNonblock
  | .setupBuffers | .resetBuf | .readable | .freeCurrent | .init | .deinit | .abort | .active => 0#8
  | .evPkt | .evSof | .evLine | .evDmaDone | .evPoll => 0#8

/-- The flag bits an operation requires (R93: `ACQUIRE` needs FREE, `GET_TAIL` needs PEEK). -/
def requiredFlags : Opcode → BitVec 8
  | .acquire => flagFree
  | .getTail => flagPeek
  | .setupBuffers | .release | .getHead | .resetBuf | .readable | .freeCurrent | .init | .deinit | .abort | .active
  | .snapshot => 0#8
  | .evPkt | .evSof | .evLine | .evDmaDone | .evPoll => 0#8

/-- R107: every set bit is accepted and every required bit is set. -/
def flagsLegal (op : Opcode) (flags : BitVec 8) : Bool :=
  (flags &&& ~~~(acceptedFlags op) == 0#8) && (flags &&& requiredFlags op == requiredFlags op)

/-! The stored flags: bits 2:0 of the flag byte (R23, R92). -/

/-- Sets the stored flag whose position in the flag byte is `f`. -/
def setStored (b : BitVec 3) (f : BitVec 8) : BitVec 3 := b ||| f.setWidth 3

/-- Reads the stored flag whose position in the flag byte is `f`. -/
def storedFlag (b : BitVec 3) (f : BitVec 8) : Bool := b &&& f.setWidth 3 != 0#3

end Sys2Proof.Machine
end

