-- ==== Sys2Proof/WellFormed.lean ====
section
/-! DEFINITION. Which instructions are well-formed: the flag byte holds only accepted bits and all required ones
(30_encoding R93, R107). Every other operand has exactly the values its field has. -/

namespace Sys2Proof

/-- R107 on a decoded instruction. -/
def Instr.wellFormed : Instr → Bool
  | .acquire flags => Machine.flagsLegal .acquire flags
  | .release flags => Machine.flagsLegal .release flags
  | .getHead flags => Machine.flagsLegal .getHead flags
  | .getTail flags => Machine.flagsLegal .getTail flags
  | .snapshot flags => Machine.flagsLegal .snapshot flags
  | .setupBuffers => true
  | .resetBuf _ => true
  | .readable _ => true
  | .freeCurrent => true
  | .init => true
  | .deinit => true
  | .abort => true
  | .active _ => true
  | .evPkt => true
  | .evSof _ => true
  | .evLineRaster _ => true
  | .evLineJpeg _ => true
  | .evDmaDone _ => true
  | .evPoll => true

end Sys2Proof
end

