-- ==== Sys2Proof/Decode.lean ====
section
/-! DEFINITION. Decoding and encoding of the 32-bit command and event words (30_encoding R90 to R95, R107 to R109). The
decoder is total: a word is an instruction or is rejected by name. -/

namespace Sys2Proof

/-- Why a word is no command and no event (R107, R108). The step answers `IllegalOp` for each of them. -/
inductive Reject where
  /-- `op < 0x80` is not in the map of R93. -/
  | reservedCommand
  /-- `op >= 0x80` is not in the map of R95. -/
  | reservedEvent
  /-- Bits 30:24 are not 0. -/
  | zeroField
  /-- Bit 31 is not the context R93, R95 allow. -/
  | wrongContext
  /-- A bit of byte 15:8 is set that the operation does not accept. -/
  | flagNotAccepted
  /-- A required flag bit is clear. -/
  | flagMissing
  /-- A bit of byte 23:16 is set that the operation does not use. -/
  | operandNotZero
  deriving DecidableEq, Repr

/-- The opcode numbers of R93 and R95. -/
def Opcode.code : Opcode → BitVec 8
  | .setupBuffers => 0x01#8
  | .acquire => 0x02#8
  | .release => 0x03#8
  | .getHead => 0x04#8
  | .getTail => 0x05#8
  | .resetBuf => 0x06#8
  | .readable => 0x07#8
  | .freeCurrent => 0x08#8
  | .init => 0x10#8
  | .deinit => 0x11#8
  | .abort => 0x12#8
  | .active => 0x13#8
  | .snapshot => 0x14#8
  | .evPkt => 0x80#8
  | .evSof => 0x81#8
  | .evLine => 0x82#8
  | .evDmaDone => 0x83#8
  | .evPoll => 0x84#8

/-- Every opcode of the two maps, in the order of R93 and R95. -/
def opcodes : List Opcode :=
  [.setupBuffers, .acquire, .release, .getHead, .getTail, .resetBuf, .readable, .freeCurrent,
   .init, .deinit, .abort, .active, .snapshot, .evPkt, .evSof, .evLine, .evDmaDone, .evPoll]

/-- The opcode with a given number, none for a reserved number. -/
def opcodeOf (b : BitVec 8) : Option Opcode := opcodes.find? fun o => o.code == b

/-- May a word of this opcode carry this context bit (column `ctx` of R93; R94 for events)? -/
def Opcode.allowsCtx : Opcode → Ctx → Bool
  | .acquire, c | .release, c | .resetBuf, c => c == .interrupt
  | .readable, _ | .active, _ => true
  | .setupBuffers, c | .getHead, c | .getTail, c | .freeCurrent, c => c == .thread
  | .init, c | .deinit, c | .abort, c | .snapshot, c => c == .thread
  | .evPkt, c | .evSof, c | .evLine, c | .evDmaDone, c => c == .interrupt
  | .evPoll, c => c == .thread

/-- The bits of byte 15:8 a word of this opcode may set: the accepted flags of a command; for events bit 8 of `EV_SOF`
and the channel of `EV_DMA_DONE` (R94). -/
def Opcode.byteA : Opcode → BitVec 8
  | .evSof => 0x01#8
  | .evDmaDone => 0xFF#8
  | o => Machine.acceptedFlags o

/-- The bits of byte 23:16 a word of this opcode may set: `idx` of `RESET_BUF` and `busy_mask` of `EV_LINE` (R90, R94). -/
def Opcode.byteB : Opcode → BitVec 8
  | .resetBuf | .evLine => 0xFF#8
  | _ => 0x00#8

/-- Bit 31 as a context (R90). -/
def ctxOfBit : Bool → Ctx
  | false => .thread
  | true => .interrupt

/-- A context as bit 31 (R90). -/
def Ctx.bit : Ctx → Bool
  | .thread => false
  | .interrupt => true

/-- The instruction of an opcode whose fields passed the checks. `jpeg` says that the latched pixel format is JPEG: it
selects the meaning of `EV_LINE` (R109). -/
def instrOf (jpeg : Bool) (a b : BitVec 8) (c : Ctx) : Opcode → Instr
  | .setupBuffers => .setupBuffers
  | .acquire => .acquire a
  | .release => .release a
  | .getHead => .getHead a
  | .getTail => .getTail a
  | .resetBuf => .resetBuf b
  | .readable => .readable c
  | .freeCurrent => .freeCurrent
  | .init => .init
  | .deinit => .deinit
  | .abort => .abort
  | .active => .active c
  | .snapshot => .snapshot a
  | .evPkt => .evPkt
  | .evSof => .evSof (a.getLsbD 0)
  | .evLine => if jpeg then .evLineJpeg b else .evLineRaster b
  | .evDmaDone => .evDmaDone a
  | .evPoll => .evPoll

/-- The checks of R107 and R108 on the fields of a word whose opcode is in the map; none when they all pass. -/
def fieldReject (o : Opcode) (a b : BitVec 8) (z : BitVec 7) (c : Ctx) : Option Reject :=
  if z ≠ 0#7 then some .zeroField
  else if o.allowsCtx c = false then some .wrongContext
  else if a &&& ~~~o.byteA ≠ 0#8 then some .flagNotAccepted
  else if a &&& Machine.requiredFlags o ≠ Machine.requiredFlags o then some .flagMissing
  else if b &&& ~~~o.byteB ≠ 0#8 then some .operandNotZero
  else none

/-- The decoder (R90, R94): fields `op[7:0]`, `a[15:8]`, `b[23:16]`, `zero[30:24]`, `ctx[31]`. -/
def decode (jpeg : Bool) (w : Word) : Except Reject Instr :=
  let op := w.extractLsb' 0 8
  let a := w.extractLsb' 8 8
  let b := w.extractLsb' 16 8
  let c := ctxOfBit (w.getLsbD 31)
  match opcodeOf op with
  | none => .error (if op.getLsbD 7 then .reservedEvent else .reservedCommand)
  | some o =>
    match fieldReject o a b (w.extractLsb' 24 7) c with
    | some r => .error r
    | none => .ok (instrOf jpeg a b c o)

/-! The encoder, from the tables of R93 to R95. -/

/-- The opcode of an instruction. -/
def Instr.opcode : Instr → Opcode
  | .setupBuffers => .setupBuffers
  | .acquire _ => .acquire
  | .release _ => .release
  | .getHead _ => .getHead
  | .getTail _ => .getTail
  | .resetBuf _ => .resetBuf
  | .readable _ => .readable
  | .freeCurrent => .freeCurrent
  | .init => .init
  | .deinit => .deinit
  | .abort => .abort
  | .active _ => .active
  | .snapshot _ => .snapshot
  | .evPkt => .evPkt
  | .evSof _ => .evSof
  | .evLineRaster _ => .evLine
  | .evLineJpeg _ => .evLine
  | .evDmaDone _ => .evDmaDone
  | .evPoll => .evPoll

/-- The context an instruction is issued from (R93, R94). -/
def Instr.ctx : Instr → Ctx
  | .acquire _ | .release _ | .resetBuf _ => .interrupt
  | .readable c | .active c => c
  | .setupBuffers | .getHead _ | .getTail _ | .freeCurrent | .init | .deinit | .abort | .snapshot _ => .thread
  | .evPkt | .evSof _ | .evLineRaster _ | .evLineJpeg _ | .evDmaDone _ => .interrupt
  | .evPoll => .thread

/-- Byte 15:8 of an instruction's word (R90, R94). -/
def Instr.fieldA : Instr → BitVec 8
  | .acquire f | .release f | .getHead f | .getTail f | .snapshot f => f
  | .evSof d => if d then 0x01#8 else 0x00#8
  | .evDmaDone ch => ch
  | .setupBuffers | .resetBuf _ | .readable _ | .freeCurrent | .init | .deinit | .abort | .active _ => 0x00#8
  | .evPkt | .evLineRaster _ | .evLineJpeg _ | .evPoll => 0x00#8

/-- Byte 23:16 of an instruction's word (R90, R94). -/
def Instr.fieldB : Instr → BitVec 8
  | .resetBuf idx => idx
  | .evLineRaster m | .evLineJpeg m => m
  | .setupBuffers | .acquire _ | .release _ | .getHead _ | .getTail _ | .readable _ | .freeCurrent => 0x00#8
  | .init | .deinit | .abort | .active _ | .snapshot _ => 0x00#8
  | .evPkt | .evSof _ | .evDmaDone _ | .evPoll => 0x00#8

/-- The word of an instruction: `ctx || 0000000 || b || a || op` (R90, R94). -/
def encode (i : Instr) : Word :=
  BitVec.ofBool i.ctx.bit ++ 0#7 ++ i.fieldB ++ i.fieldA ++ i.opcode.code

/-- The host's question about a row of the opcode table: the instruction read from a word of `nbits` bits. The one word
with two rows, `EV_LINE`, is read as in raster mode (R109; log 12). -/
def decodeTableWord (nbits w : Nat) : Option Instr :=
  (decode false (BitVec.ofNat 32 (w % 2 ^ nbits))).toOption

end Sys2Proof
end

