-- ==== Sys2Proof/Machine/State.lean ====
section
/-! DEFINITION. The state of the block as plain data: every register of 10_state R20 to R44, the frame-buffer store, the
step interface of 00_scope R11, and the state after power-on reset (R44, 70_reset_and_hazards R331). -/

namespace Sys2Proof.Machine

/-- The ownership state of a buffer, `st[i]` (R21). -/
inductive BufState where
  | free
  | writing
  | readable
  | held
  deriving DecidableEq, Repr

/-- The state of the snapshot FSM, `snap` (R37). Code 3 is never produced. -/
inductive SnapState where
  | idle
  | delay
  | wait
  deriving DecidableEq, Repr

/-- One entry of the buffer descriptor file (R20): `st[i]`, `woff[i]`, `bflags[i]`. -/
structure Buf where
  st : BufState
  woff : Word
  bflags : BitVec 3
  deriving DecidableEq, Repr

/-- A descriptor entry as `SETUP_BUFFERS`, `INIT` and power-on leave it (R44). -/
def Buf.reset : Buf := { st := .free, woff := 0#32, bflags := 0#3 }

/-- A pending DMA transfer record (R38). -/
structure Transfer where
  buf : BitVec 8
  off : Nat
  bytes : List Byte
  deriving DecidableEq, Repr

/-- One input of the block (R11): the command or event word, the operand word, the tick, the payload, and the value on
the configuration port while the input is taken (R100; log 22). R11 says that `pay` is empty but for `EV_PKT` and `EV_LINE`;
the type does not demand it (log 34). -/
structure Input where
  w : Word
  opw : Word
  now : Word
  pay : List Byte
  cfgPort : BitVec 160
  deriving DecidableEq, Repr

/-- An input of zeros, the value of the input port before the first input. -/
def Input.zero : Input := { w := 0#32, opw := 0#32, now := 0#32, pay := [], cfgPort := 0#160 }

/-- The block's calls on its collaborators (R113). -/
inductive Effect where
  | xferConfigure
  | xferStart
  | xferAbort
  | dmaCreate (ch : Nat)
  | dmaSubmit (ch : Nat) (srcOff : Word) (srcBurst : BitVec 6) (buf : BitVec 8) (dstOff : Nat) (dstBurst : BitVec 6)
      (len : Word)
  | dmaTrigger (ch : Nat)
  | dmaIrqDisable (ch : Nat)
  | hwProgram
  | hwEnable
  | hwDisable
  | reqEnable
  | reqDisable
  | throttle
  | callback (arg : Word)
  | yield
  deriving DecidableEq, Repr

/-- Trace labels (R114): causes that no register holds (R41). -/
inductive Trace where
  | syncLost
  | droppedFrame
  | noBuffer
  deriving DecidableEq, Repr

/-- A response, two words (R96). -/
structure Response where
  rsp : Word
  rsp2 : Word
  deriving DecidableEq, Repr

/-- A frame descriptor, three words (R98). -/
structure Descriptor where
  desc0 : Word
  desc1 : Word
  desc2 : Word
  deriving DecidableEq, Repr

/-- The output of a step (R11). -/
structure Output where
  rsp : Option Response
  desc : Option Descriptor
  eff : List Effect
  tr : List Trace
  deriving DecidableEq, Repr

/-- No response, no descriptor, no effect, no trace label. -/
def Output.empty : Output := { rsp := none, desc := none, eff := [], tr := [] }

/-- The frame-buffer store FB (R39, R60): its written bytes, keyed by address, keys strictly rising. -/
abbrev Memory := List Host.Cell

/-- Why the machine stops with a fault. The spec gives the block no fault (93_implementation_defined Part 1). -/
inductive Fault where
  /-- An access to a byte `(i, off)` that does not exist: `i >= NMAX` or `off >= CAP` (R60). Raised by the packet copy,
  the line copy, the landing of a transfer and the JPEG size scan, and only in states that no run reaches (R144).
  Safe: the model stops where the spec promises that no rule goes. Log 14. -/
  | outsideStore
  deriving DecidableEq, Repr

/-- Why the machine refuses an input. -/
inductive Refusal where
  /-- An instruction without a meaning, raised by `exec` only. Safe. -/
  | notModelled (mnemonic : String)
  /-- An acted-on `EV_PKT` whose payload is not one packet (U6: outside the input contract). Safe. Log 7. -/
  | packetLength
  /-- A JPEG line whose prefix exceeds the line (U7: outside the input contract). Safe. Log 8. -/
  | jpegPrefix
  /-- An acted-on `EV_LINE` whose payload is not `cfg.line_bytes` long (U8: outside the input contract). Safe. Log 9. -/
  | lineLength
  /-- An input whose tick is behind the last one (U12: outside the tick source's contract). Raised by `step`. Safe. Log 10. -/
  | tickRanBackwards
  deriving DecidableEq, Repr

/-- The whole state of the block. -/
structure State where
  /-- The implementation parameters (R6); no step changes them. -/
  prm : Params
  /-- `initialised` (R27). -/
  initialised : Bool
  /-- `cfg`, the latched configuration record (R28, R100). -/
  cfg : BitVec 160
  /-- The buffer descriptor file, `NMAX` entries (R20). -/
  bufs : List Buf
  /-- The frame-buffer store (R24, R39, R60). -/
  fb : Memory
  /-- `head`, the read cursor (R26). -/
  head : BitVec 8
  /-- `tail`, the write cursor (R26). -/
  tail : BitVec 8
  /-- `wr_valid`, the hand-off token (R26). -/
  wrValid : Bool
  /-- `jpeg_size` (R29). -/
  jpegSize : Word
  /-- `active` (R30). -/
  active : Bool
  /-- `resync_pending` (R30). -/
  resyncPending : Bool
  /-- `exp_pid` (R31). -/
  expPid : BitVec 12
  /-- `exp_seg` (R31). -/
  expSeg : BitVec 3
  /-- `multi` (R31). -/
  multi : Bool
  /-- `drop` (R33). -/
  drop : Bool
  /-- `line` (R34). -/
  line : Word
  /-- `in_frame` (R34). -/
  inFrame : Bool
  /-- `req_en` (R34). -/
  reqEn : Bool
  /-- `dst_stride` (R35). -/
  dstStride : Word
  /-- `src_off` (R35). -/
  srcOff : Word
  /-- `dst_burst` (R35). -/
  dstBurst : BitVec 6
  /-- `src_burst` (R35). -/
  srcBurst : BitVec 6
  /-- `dma_en` (R35). -/
  dmaEn : Bool
  /-- `rr` (R36). -/
  rr : BitVec 8
  /-- `pending[ch]`, `NCH` entries (R38). -/
  pending : List (Option Transfer)
  /-- `snap` (R37). -/
  snap : SnapState
  /-- `t_rs` (R37). -/
  tRs : Word
  /-- `t_start` (R37). -/
  tStart : Word
  /-- `timeout` (R37). -/
  timeout : Word
  /-- `nonblock` (R37). -/
  nonblock : Bool
  /-- The input being taken (R11): the model's own field, log 2. -/
  port : Input
  /-- The inputs still to be taken, in order of arrival (R11, R302): the model's own field, log 2. -/
  inputs : List Input
  /-- The tick of the last input taken (R11, R306): the model's own field, log 10. -/
  lastNow : Option Word
  /-- How many free values have been drawn: the model's own field, log 4. -/
  draws : Nat
  /-- The output of the last step (R11): the model's own field, log 13. -/
  out : Output
  deriving DecidableEq, Repr

/-- The state after power-on reset of a block built with parameters `p` (R44, column power-on; R331). -/
def State.powerOn (p : Params) : State where
  prm := p
  initialised := false
  cfg := 0#160
  bufs := List.replicate p.nmax Buf.reset
  fb := []
  head := 0#8
  tail := 0#8
  wrValid := false
  jpegSize := 0#32
  active := false
  resyncPending := false
  expPid := 0#12
  expSeg := 0#3
  multi := false
  drop := false
  line := 0#32
  inFrame := false
  reqEn := false
  dstStride := 0#32
  srcOff := 0#32
  dstBurst := 1#6
  srcBurst := 1#6
  dmaEn := false
  rr := 0#8
  pending := List.replicate p.nch none
  snap := .idle
  tRs := 0#32
  tStart := 0#32
  timeout := 0#32
  nonblock := false
  port := Input.zero
  inputs := []
  lastNow := none
  draws := 0
  out := Output.empty

/-- The machine right after reset: the block as built, at power-on (R331). -/
def State.reset : State := State.powerOn Config.params

end Sys2Proof.Machine
end

