-- ==== Sys2Proof/Machine/Memory.lean ====
section
/-! DEFINITION. The frame-buffer store as a list of cells (20_memory R60): its canonical form, reading and writing. A cell
that is not listed holds no specified value (10_state R24), so a listed cell never equals what an unlisted one reads as. -/

namespace Sys2Proof.Machine

/-- The key of byte `off` of buffer `i`. `CAP < 2^32` (R6), so distinct addresses have distinct keys. Log 15. -/
def fbKey (i off : Nat) : Nat := i * 4294967296 + off

/-- The written value at a key; none where no step has written since power-on (R24). -/
def Memory.get? : Memory → Nat → Option Byte
  | [], _ => none
  | (k, b) :: m, a => if a = k then some b else Memory.get? m a

/-- Writes one byte, keeping the keys strictly rising. -/
def Memory.set : Memory → Nat → Byte → Memory
  | [], a, b => [(a, b)]
  | (k, c) :: m, a, b =>
    if a < k then (a, b) :: (k, c) :: m
    else if a = k then (a, b) :: m
    else (k, c) :: Memory.set m a b

/-- Writes a byte string at consecutive keys. -/
def Memory.setRange : Memory → Nat → List Byte → Memory
  | m, _, [] => m
  | m, a, b :: bs => Memory.setRange (Memory.set m a b) (a + 1) bs

/-- The canonical form: keys strictly rising. -/
def Memory.wf : Memory → Bool
  | [] => true
  | (k, _) :: m => m.all (fun c => decide (k < c.1)) && Memory.wf m

end Sys2Proof.Machine
end

