-- ==== Sys2Proof/Machine/Operands.lean ====
section
/-! DEFINITION. The operand forms: byte strings (00_scope R7, R8), the configuration record (30_encoding R100, R101), the
serial packet (R102 to R104), the JPEG line (R105), and the sub-format phase shift (44_snapshot_control R266). -/

namespace Sys2Proof.Machine

/-! Byte strings. -/

/-- `s[a .. a + n)` of a byte string (R7). -/
def slice (bytes : List Byte) (a n : Nat) : List Byte := (bytes.drop a).take n

/-- Byte `k` of a payload (R61). Every read below is of a byte that the length checks before it guarantee. -/
def byteAt (bytes : List Byte) (k : Nat) : Byte := bytes.getD k 0#8

/-- `be16(b0, b1)` as a 16-bit word (R8, R63, R64). -/
def be16 (b0 b1 : Byte) : BitVec 16 := b0 ++ b1

/-! The configuration record (R100). -/

/-- `engine`, the reassembly engine that drives the pool (R100). -/
inductive Engine where
  | none
  | serial
  | raster
  /-- Code 3, which `INIT` refuses (R252). -/
  | reserved
  deriving DecidableEq, Repr

/-- Pixel formats (R101). -/
inductive PixFmt where
  | grayscale
  | rgb
  | yuv
  | bayer
  | jpeg
  /-- Codes 0, 6 and 7, which `INIT` refuses (R252). -/
  | reserved
  deriving DecidableEq, Repr

def cfgEngineCode (c : BitVec 160) : BitVec 2 := c.extractLsb' 0 2
def cfgPixCode (c : BitVec 160) : BitVec 3 := c.extractLsb' 2 3
def cfgTranspose (c : BitVec 160) : Bool := c.getLsbD 5
def cfgCrcEn (c : BitVec 160) : Bool := c.getLsbD 6
def cfgCbEn (c : BitVec 160) : Bool := c.getLsbD 7
def cfgSubformat (c : BitVec 160) : BitVec 8 := c.extractLsb' 8 8
def cfgNBuffers (c : BitVec 160) : BitVec 8 := c.extractLsb' 16 8
def cfgReserved (c : BitVec 160) : BitVec 8 := c.extractLsb' 24 8
def cfgX (c : BitVec 160) : BitVec 16 := c.extractLsb' 32 16
def cfgY (c : BitVec 160) : BitVec 16 := c.extractLsb' 48 16
def cfgU (c : BitVec 160) : BitVec 16 := c.extractLsb' 64 16
def cfgV (c : BitVec 160) : BitVec 16 := c.extractLsb' 80 16
def cfgLineBytes (c : BitVec 160) : BitVec 16 := c.extractLsb' 96 16
def cfgPpf (c : BitVec 160) : BitVec 16 := c.extractLsb' 112 16
def cfgCbArg (c : BitVec 160) : Word := c.extractLsb' 128 32

/-- The engine codes of R100. -/
def engineOfCode (b : BitVec 2) : Engine :=
  if b = 0#2 then .none else if b = 1#2 then .serial else if b = 2#2 then .raster else .reserved

/-- The pixel-format codes of R101. -/
def pixFmtOfCode (b : BitVec 3) : PixFmt :=
  if b = 1#3 then .grayscale else if b = 2#3 then .rgb else if b = 3#3 then .yuv
  else if b = 4#3 then .bayer else if b = 5#3 then .jpeg else .reserved

def cfgEngine (c : BitVec 160) : Engine := engineOfCode (cfgEngineCode c)
def cfgPixFmt (c : BitVec 160) : PixFmt := pixFmtOfCode (cfgPixCode c)

/-- Formats 1 to 4 are the raster formats (R101). -/
def PixFmt.isRaster : PixFmt → Bool
  | .grayscale | .rgb | .yuv | .bayer => true
  | .jpeg | .reserved => false

/-- `BPP(fmt)` (R6, R101): a parameter for each raster format; no other code has a value (log 25). -/
def bytesPerPixel (p : Params) (code : BitVec 3) : Nat :=
  match pixFmtOfCode code with
  | .grayscale => p.bppGray
  | .rgb => p.bppRgb
  | .yuv => p.bppYuv
  | .bayer => p.bppBayer
  | .jpeg | .reserved => Config.bppOfNoFormat code

/-- `NSEG = multi ? 4 : 1` (R31, R160). -/
def segCount (multi : Bool) : Nat := if multi then 4 else 1

/-- `FRAME_BYTES = NSEG * S * P * PB` (R160). -/
def frameBytes (p : Params) (multi : Bool) : Nat := segCount multi * p.segPkts * p.pktPix * p.pixBytes

/-- `ConfigLegal(c)` (R252). -/
def configLegal (p : Params) (c : BitVec 160) : Bool :=
  decide (cfgNBuffers c ≠ 0#8) && decide (cfgEngine c ≠ .reserved) && decide (cfgPixFmt c ≠ .reserved) &&
  decide (cfgReserved c = 0#8) && decide ((cfgNBuffers c).toNat ≤ p.nmax) &&
  (decide (cfgEngine c ≠ .serial) ||
    (decide ((cfgPpf c).toNat = p.segPkts) || decide ((cfgPpf c).toNat = 4 * p.segPkts))) &&
  (decide (cfgPixFmt c ≠ .jpeg) || decide (cfgEngine c = .raster))

/-- The sensor variant selected at init (R251). -/
def configMulti (p : Params) (c : BitVec 160) : Bool :=
  decide (cfgEngine c = .serial) && decide ((cfgPpf c).toNat = 4 * p.segPkts)

/-! The serial packet. -/

/-- `HDR`, bytes of a packet header (R6, D21). -/
def packetHeader : Nat := 4

/-- `SEG_BASE`, the wire value of the first segment (R6, D22). -/
def segBase : Nat := 0

/-- Payload bytes of a packet, `P * PB` (R102). -/
def payloadBytes (p : Params) : Nat := p.pktPix * p.pixBytes

/-- `PKT_LEN = HDR + P * PB` (R102). -/
def packetLen (p : Params) : Nat := packetHeader + payloadBytes p

/-- The packet-id word (R64, R102). -/
def packetIdw (pay : List Byte) : BitVec 16 := be16 (byteAt pay 0) (byteAt pay 1)

/-- The CRC/check word (R64, R102). Only `CHECK` looks at it (R310). -/
def packetCrcw (pay : List Byte) : BitVec 16 := be16 (byteAt pay 2) (byteAt pay 3)

/-- `pid = idw[11:0]` (R103). -/
def packetPid (pay : List Byte) : BitVec 12 := (packetIdw pay).extractLsb' 0 12

/-- `wseg = idw[14:12]` (R103). Bit 15 is ignored. -/
def packetWseg (pay : List Byte) : BitVec 3 := (packetIdw pay).extractLsb' 12 3

/-- The payload of a packet (R102). -/
def packetPayload (p : Params) (pay : List Byte) : List Byte := slice pay packetHeader (payloadBytes p)

/-- Packet classes (R104). -/
inductive Packet where
  | dontCare
  | special (pid : BitVec 12) (wseg : BitVec 3)
  | plain (pid : BitVec 12)
  deriving DecidableEq, Repr

/-- `Decode(PAY)` (R104): the don't-care test first, on the whole word. -/
def decodePacket (p : Params) (multi : Bool) (pay : List Byte) : Packet :=
  if packetIdw pay &&& p.dcMask = p.dcMatch then .dontCare
  else if multi = true ∧ (packetPid pay).toNat = p.specialPid then .special (packetPid pay) (packetWseg pay)
  else .plain (packetPid pay)

/-! The JPEG line (R105). -/

/-- Bytes of the length prefix (R105). -/
def jpegHeader : Nat := 2

/-- `L`, the big-endian length prefix (R63, R105). -/
def jpegLen (pay : List Byte) : Nat := (be16 (byteAt pay 0) (byteAt pay 1)).toNat

/-- The stream bytes of a JPEG line (R105). -/
def jpegStream (pay : List Byte) : List Byte := slice pay jpegHeader (jpegLen pay)

/-! The sub-format phase shift. -/

/-- `SUBFMT_SHIFT` (R266): a parameter bound by its two identity laws. Log 6. -/
def subfmtShift (code : BitVec 3) (sub : BitVec 8) (x y : BitVec 16) (transpose : Bool) : BitVec 8 :=
  match pixFmtOfCode code with
  | .bayer | .yuv =>
    if x.getLsbD 0 = false ∧ y.getLsbD 0 = false ∧ transpose = false then sub
    else Config.phaseShift code sub x y transpose
  | .grayscale | .rgb | .jpeg => sub
  | .reserved => Config.phaseShift code sub x y transpose

end Sys2Proof.Machine
end

