-- ==== Sys2Proof/Machine/Ops.lean ====
section
/-! DEFINITION. The named operations over the state that the instructions share: outputs and responses (30_encoding R96 to
R98, R113), reporting an error (60_exceptions R290), admission (30_encoding R112), the descriptor file and the ring
(10_state R20 to R26), the frame-buffer store (20_memory R60), `Commit` (40_pool_ops R134), the recovery procedures
(43_sync_recovery R225 to R227) and the landing of DMA transfers (42_line_engine R194).

The block has no trap: an error is the status of a response, after the state changes its rule lists (R290). Taking an
exception is therefore `reject`, and what stands for the return is the next input (R305). -/

namespace Sys2Proof.Machine

/-! ## Outcomes -/

/-- The outcome of a procedure that may only stop at an access outside the store. -/
def finish : Except Fault State → Host.Outcome State Fault Refusal
  | .ok s => .next s
  | .error f => .fault f

/-! ## Outputs -/

/-- `effect ...` (R8, R113). -/
def emit (e : Effect) (s : State) : State := { s with out := { s.out with eff := s.out.eff ++ [e] } }

/-- Several effects, in order. -/
def emitAll (es : List Effect) (s : State) : State := { s with out := { s.out with eff := s.out.eff ++ es } }

/-- `trace ...` (R8, R114). -/
def traceLabel (t : Trace) (s : State) : State := { s with out := { s.out with tr := s.out.tr ++ [t] } }

/-- `ignore` (R8): no state change, no effect, no response. -/
def ignore (s : State) : Host.Outcome State Fault Refusal := .next s

/-! ## The descriptor file and the ring -/

/-- Entry `i` of the descriptor file (R20). Every index a rule uses is below `NMAX` (R12); log 17. -/
def State.buf (s : State) (i : BitVec 8) : Buf := s.bufs.getD i.toNat Buf.reset

/-- Writes entry `i` of the descriptor file. -/
def State.setBuf (s : State) (i : BitVec 8) (b : Buf) : State := { s with bufs := s.bufs.set i.toNat b }

/-- `N = cfg.n_buffers` (R20). -/
def State.nBufs (s : State) : Nat := (cfgNBuffers s.cfg).toNat

/-- `(i + 1) mod N` (R12, R25). -/
def ringNext (s : State) (i : BitVec 8) : BitVec 8 := BitVec.ofNat 8 ((i.toNat + 1) % s.nBufs)

/-- The code of an ownership state (R21). -/
def BufState.code : BufState → BitVec 2
  | .free => 0#2
  | .writing => 1#2
  | .readable => 2#2
  | .held => 3#2

/-- The code of a snapshot state (R37). -/
def SnapState.code : SnapState → BitVec 2
  | .idle => 0#2
  | .delay => 1#2
  | .wait => 2#2

/-- Sets the first `n` entries FREE with `woff` and `bflags` 0 (R131). -/
def freeFirst : Nat → List Buf → List Buf
  | 0, bs => bs
  | _ + 1, [] => []
  | n + 1, _ :: bs => Buf.reset :: freeFirst n bs

/-! ## Responses -/

/-- The status codes of R97. `syncLost` and `droppedFrame` are never returned (R296, R297). -/
inductive Status where
  | ok
  | wouldBlock
  | captureTimeout
  | invalidFrameSize
  | overflow
  | syncLost
  | droppedFrame
  | noBuffer
  | illegalOp
  | busy
  | notInitialised
  | illegalConfig
  deriving DecidableEq, Repr

/-- The numbers of R97. -/
def Status.code : Status → BitVec 8
  | .ok => 0x00#8
  | .wouldBlock => 0x01#8
  | .captureTimeout => 0x02#8
  | .invalidFrameSize => 0x03#8
  | .overflow => 0x04#8
  | .syncLost => 0x05#8
  | .droppedFrame => 0x06#8
  | .noBuffer => 0x07#8
  | .illegalOp => 0x10#8
  | .busy => 0x11#8
  | .notInitialised => 0x12#8
  | .illegalConfig => 0x13#8

/-- The response word `RSP` (R96): `status[7:0]`, `idx[15:8]`, `bflags[18:16]`, `bstate[25:24]`, `bool[26]`. -/
def rspWord (status idx : BitVec 8) (bflags : BitVec 3) (bstate : BitVec 2) (b : Bool) : Word :=
  0#5 ++ BitVec.ofBool b ++ bstate ++ 0#5 ++ bflags ++ idx ++ status

/-- The response of R96 in the state after the step: about buffer `idx`, or about none (`idx = 0xFF`). -/
def responseOf (s : State) (status : Status) (idx : Option (BitVec 8)) (b : Bool) : Response :=
  match idx with
  | none => { rsp := rspWord status.code 0xFF#8 0#3 0#2 b, rsp2 := 0#32 }
  | some i => { rsp := rspWord status.code i (s.buf i).bflags (s.buf i).st.code b, rsp2 := (s.buf i).woff }

/-- `rsp(status, idx, bool)` (R8, R96). -/
def respond (status : Status) (idx : Option (BitVec 8)) (b : Bool) (s : State) : State :=
  { s with out := { s.out with rsp := some (responseOf s status idx b) } }

/-- `raise <Error>` (R8, R290): the step ends with the status of the error and `idx = 0xFF`. The one way an error is
reported; the rules that change state before it do so on the state they pass here. -/
def reject (status : Status) (s : State) : State := respond status none false s

/-! ## Admission (R112). Check (1) is the decoder's; an ill-formed instruction, which no word decodes to, is answered in
the same way (log 11). -/

/-- The checks of R112 for a thread command that needs a session: (1), (2), (3). -/
def admitThread (s : State) (legal : Bool) : Option Status :=
  if legal = false then some .illegalOp
  else if s.initialised = false then some .notInitialised
  else if s.snap ≠ .idle then some .busy
  else none

/-- The checks of R112 for `INIT`: it may come before a session, check (3) only. -/
def admitInit (s : State) : Option Status :=
  if s.snap ≠ .idle then some .busy else none

/-- The checks of R112 for a command of the producer port: (1), (2), (4). -/
def admitProducer (s : State) (legal : Bool) : Option Status :=
  if legal = false then some .illegalOp
  else if s.initialised = false then some .notInitialised
  else if cfgEngine s.cfg ≠ .none then some .illegalOp
  else none

/-- A command: refused with a status and no state change (R298), or run. -/
def command (refusal : Option Status) (s : State) (body : State → State) : Host.Outcome State Fault Refusal :=
  match refusal with
  | some e => .next (reject e s)
  | none => .next (body s)

/-! ## The frame-buffer store -/

/-- A byte of the store (R60): what was last written, else the value it has held since power-on, which is free
(R24, U1; log 3). -/
def fbByte (s : State) (i : BitVec 8) (off : Nat) : Byte :=
  (Memory.get? s.fb (fbKey i.toNat off)).getD (Config.powerOnByte i.toNat off)

/-- Do the bytes `[off, off + n)` of buffer `i` exist (R60)? -/
def inStore (p : Params) (i : BitVec 8) (off n : Nat) : Bool :=
  decide (i.toNat < p.nmax) && decide (off + n ≤ p.cap)

/-- `MemWrite(FB, i, off, bytes)` (R8, R60). -/
def fbWrite (s : State) (i : BitVec 8) (off : Nat) (bytes : List Byte) : Except Fault State :=
  if inStore s.prm i off bytes.length then
    .ok { s with fb := Memory.setRange s.fb (fbKey i.toNat off) bytes }
  else .error .outsideStore

/-- The first `m >= from`, among the `fuel` next ones, with byte `m` of buffer `i` `0xFF` and byte `m + 1` `0xD9`: the
end-of-image marker of R106 as R193 and R265 look for it. -/
def firstMarker (s : State) (i : BitVec 8) : Nat → Nat → Option Nat
  | 0, _ => none
  | fuel + 1, m =>
    if fbByte s i m = 0xFF#8 ∧ fbByte s i (m + 1) = 0xD9#8 then some m else firstMarker s i fuel (m + 1)

/-! ## Pool procedures -/

/-- The body of `SETUP_BUFFERS` (R131): the first `N` buffers FREE, cursors and token cleared. -/
def resetPool (s : State) : State :=
  { s with bufs := freeFirst s.nBufs s.bufs, head := 0#8, tail := 0#8, wrValid := false, jpegSize := 0#32 }

/-- Taking the buffer at `tail` for writing (R132, R225). -/
def takeTail (s : State) : State :=
  { s.setBuf s.tail { st := .writing, woff := 0#32, bflags := 0#3 } with wrValid := true }

/-- Clears `woff` and `bflags` of a buffer without changing its owner (R137). -/
def clearBuf (s : State) (i : BitVec 8) : State :=
  s.setBuf i { st := (s.buf i).st, woff := 0#32, bflags := 0#3 }

/-- `Commit(flags)` (R134). -/
def commit (checked : Bool) (s : State) : State :=
  let b := s.buf s.tail
  let bflags := if checked then setStored b.bflags flagCheckLast else b.bflags
  let s1 := s.setBuf s.tail { b with st := .readable, bflags := bflags }
  let s2 := { s1 with wrValid := false, tail := ringNext s s.tail }
  if cfgCbEn s.cfg then emit (.callback (cfgCbArg s.cfg)) s2 else s2

/-- Returns the HELD buffer at `head` to the pool and moves `head` past it (R139, R259, R264). -/
def freeHead (s : State) : State :=
  { s.setBuf s.head { s.buf s.head with st := .free } with head := ringNext s s.head }

/-! ## Recovery -/

/-- `n` fresh free bytes (U2; log 4). -/
def freeBytes (d n : Nat) : List Byte := (List.range n).map fun k => Config.freeByte (d + k)

/-- The destinations of cancelled transfers become unspecified, byte by byte (R226, U2). A record that names no bytes of
the store, which no run makes, changes none. Gives the store and the number of draws. -/
def cancelTransfers (p : Params) : List (Option Transfer) → Memory → Nat → Memory × Nat
  | [], m, d => (m, d)
  | none :: ts, m, d => cancelTransfers p ts m d
  | some t :: ts, m, d =>
    if inStore p t.buf t.off t.bytes.length then
      cancelTransfers p ts (Memory.setRange m (fbKey t.buf.toNat t.off) (freeBytes d t.bytes.length))
        (d + t.bytes.length)
    else cancelTransfers p ts m d

/-- The effects of `DoAbort` (R226). -/
def abortEffects (s : State) : List Effect :=
  match cfgEngine s.cfg with
  | .serial => [.xferAbort]
  | .raster => .hwDisable :: (List.range s.prm.nch).map .dmaIrqDisable
  | .none | .reserved => []

/-- `DoAbort` (R226), the one abort procedure. -/
def doAbort (s : State) : State :=
  let r := cancelTransfers s.prm s.pending s.fb s.draws
  { emitAll (abortEffects s) s with
    fb := r.1, draws := r.2, pending := s.pending.map fun _ => none,
    active := false, resyncPending := true, wrValid := false,
    expPid := 0#12, expSeg := 0#3,
    line := 0#32, inFrame := false, drop := false, reqEn := false, rr := 0#8 }

/-- `SyncLost` (R227). -/
def syncLost (s : State) : State := doAbort (traceLabel .syncLost s)

/-- Backpressure inside an engine: no buffer at the start of a frame (R161, R183, R225). -/
def noBufferAbort (s : State) : State := doAbort (traceLabel .noBuffer s)

/-- `FrameStartBuffer` (R225); none is its answer false. -/
def frameStartBuffer (s : State) : Option State :=
  if (s.buf s.tail).st = .writing ∧ s.wrValid = true then some (clearBuf s s.tail)
  else if (s.buf s.tail).st = .free then some (takeTail s)
  else none

/-! ## DMA transfers -/

/-- `pending[ch]`; none also for a handle that does not exist (R38). -/
def State.pendingAt (s : State) (ch : Nat) : Option Transfer := (s.pending.getD ch none)

/-- Writes `pending[ch]`. -/
def State.setPending (s : State) (ch : Nat) (t : Option Transfer) : State := { s with pending := s.pending.set ch t }

/-- `Land(ch)` of the record `t` (R194): the buffer named in the record is written whatever its state is by then. -/
def land (s : State) (ch : Nat) (t : Transfer) : Except Fault State :=
  match fbWrite s t.buf t.off t.bytes with
  | .ok s1 => .ok (s1.setPending ch none)
  | .error f => .error f

end Sys2Proof.Machine
end

