-- ==== Sys2Proof/Machine/Packet.lean ====
section
/-! DEFINITION. The serial packet reassembly engine (spec/41_packet_engine.md) with the hunting and validation predicates
of spec/43_sync_recovery.md. -/

namespace Sys2Proof.Machine

/-- `d.pid` of a packet that is not don't-care (R162). -/
def Packet.pid : Packet → BitVec 12
  | .dontCare => 0#12
  | .special pid _ => pid
  | .plain pid => pid

/-- `HuntSegment(d)` (R223): a special packet with a wire segment that is not the first, while waiting for segment 0. -/
def huntSegment (s : State) : Packet → Bool
  | .special _ wseg => s.multi && decide (s.expSeg = 0#3) && decide (wseg.toNat ≠ segBase)
  | .plain _ | .dontCare => false

/-- The segment condition of `Valid` (R224). -/
def segmentValid (s : State) : Packet → Bool
  | .special _ wseg => !s.multi || decide (wseg.toNat = s.expSeg.toNat + segBase)
  | .plain _ | .dontCare => true

/-- `Valid(d, PAY)` (R224). `CHECK` is asked only when `cfg.crc_en = 1` (R310). -/
def packetValid (s : State) (d : Packet) (pay : List Byte) : Bool :=
  decide (d.pid = s.expPid) && (!cfgCrcEn s.cfg || Config.check pay) && segmentValid s d

/-- The byte offset of a packet's payload in its buffer (R163). -/
def placeOffset (s : State) (pid : BitVec 12) : Nat :=
  (pid.toNat * s.prm.pktPix + s.expSeg.toNat * s.prm.segPkts * s.prm.pktPix) * s.prm.pixBytes

/-- Writes `woff` of a buffer. -/
def setWoff (s : State) (i : BitVec 8) (w : Word) : State := s.setBuf i { s.buf i with woff := w }

/-- `Place(pid, PAY)` (R163). -/
def place (pid : BitVec 12) (pay : List Byte) (s : State) : Except Fault State :=
  match fbWrite s s.tail (placeOffset s pid) (packetPayload s.prm pay) with
  | .ok s1 => .ok (setWoff s1 s.tail (BitVec.ofNat 32 (placeOffset s pid + payloadBytes s.prm)))
  | .error f => .error f

/-- `Advance()` (R164). -/
def advancePacket (s : State) : State :=
  if s.expPid.toNat + 1 = s.prm.segPkts then
    if s.expSeg.toNat + 1 = segCount s.multi then commit true { s with expPid := 0#12, expSeg := 0#3 }
    else { s with expPid := 0#12, expSeg := s.expSeg + 1#3 }
  else { s with expPid := s.expPid + 1#12 }

/-- `Place` then `Advance`: the end of step 5 of R161. -/
def acceptPacket (pid : BitVec 12) (pay : List Byte) (s : State) : Except Fault State :=
  match place pid pay s with
  | .ok s1 => .ok (advancePacket s1)
  | .error f => .error f

/-- Steps 2 to 5 of R161, on a packet that is not don't-care. -/
def packetSteps (d : Packet) (pay : List Byte) (s : State) : Except Fault State :=
  if s.expPid = 0#12 ∧ d.pid ≠ 0#12 then .ok s
  else if huntSegment s d then .ok { s with expPid := 0#12 }
  else if packetValid s d pay = false then .ok (syncLost s)
  else if s.expPid = 0#12 ∧ s.expSeg = 0#3 then
    match frameStartBuffer s with
    | none => .ok (noBufferAbort s)
    | some s1 => acceptPacket d.pid pay s1
  else acceptPacket d.pid pay s

/-- `EV_PKT` on an acted-on event (R161): the don't-care test, then steps 2 to 5. -/
def packetBody (pay : List Byte) (s : State) : Except Fault State :=
  match decodePacket s.prm s.multi pay with
  | .dontCare => .ok s
  | .special pid wseg => packetSteps (.special pid wseg) pay s
  | .plain pid => packetSteps (.plain pid) pay s

/-- `EV_PKT` (R161). An acted-on event whose payload is not one packet is outside the input contract (R102, U6). -/
def execEvPkt (s : State) : Host.Outcome State Fault Refusal :=
  if cfgEngine s.cfg ≠ .serial ∨ s.active = false then ignore s
  else if s.port.pay.length ≠ packetLen s.prm then .refused .packetLength
  else finish (packetBody s.port.pay s)

end Sys2Proof.Machine
end

