-- ==== Sys2Proof/Machine/Line.lean ====
section
/-! DEFINITION. The raster/JPEG line reassembly engine and its DMA scheduler (spec/42_line_engine.md). -/

namespace Sys2Proof.Machine

/-! ## Burst derivation -/

/-- The burst widths `B`, largest first (R181): powers of two up to 32, without 16. -/
def burstWidths : List Nat := [32, 8, 4, 2, 1]

/-- The largest burst width with a property (R181). -/
def largestBurst (p : Nat → Bool) : Nat := (burstWidths.find? p).getD 1

/-- `dst_burst` (R181). -/
def dstBurstOf (stride : Nat) : Nat := largestBurst fun b => decide (b ∣ stride)

/-- `src_burst` (R181). -/
def srcBurstOf (dstBurst srcOff : Nat) : Nat := largestBurst fun b => decide (b ∣ dstBurst) && decide (b ∣ srcOff)

/-- `DeriveBurst` (R181). -/
def deriveBurst (s : State) : State :=
  if cfgEngine s.cfg = .raster ∧ (cfgPixFmt s.cfg).isRaster = true then
    let bpp := bytesPerPixel s.prm (cfgPixCode s.cfg)
    let stride := (cfgU s.cfg).toNat * bpp
    let off := (cfgX s.cfg).toNat * bpp
    { s with
      dstStride := BitVec.ofNat 32 stride, srcOff := BitVec.ofNat 32 off,
      dstBurst := BitVec.ofNat 6 (dstBurstOf stride),
      srcBurst := BitVec.ofNat 6 (srcBurstOf (dstBurstOf stride) off),
      dmaEn := decide (s.prm.minDmaStride ≤ stride) }
  else { s with dstStride := 0#32, srcOff := 0#32, dstBurst := 1#6, srcBurst := 1#6, dmaEn := false }

/-! ## Start of frame -/

/-- `EV_SOF` once the frame has a buffer (R183, R196). -/
def startFrame (throttleDrop : Bool) (s : State) : State :=
  let s1 := emit .throttle { s with line := 0#32, inFrame := true, drop := throttleDrop }
  if cfgPixFmt s.cfg = .jpeg then
    if throttleDrop then { s1 with inFrame := false }
    else emit .reqEnable { s1 with reqEn := true }
  else s1

/-- `EV_SOF` (R183). -/
def execEvSof (throttleDrop : Bool) (s : State) : Host.Outcome State Fault Refusal :=
  if cfgEngine s.cfg ≠ .raster ∨ s.active = false then ignore s
  else
    match frameStartBuffer s with
    | none => .next (noBufferAbort s)
    | some s1 => .next (startFrame throttleDrop s1)

/-! ## Raster lines -/

/-- The visible window of a line (R185): `PAY[src_off .. src_off + dst_stride)`. -/
def lineWindow (s : State) (pay : List Byte) : List Byte := slice pay s.srcOff.toNat s.dstStride.toNat

/-- The byte offset of a row in the buffer (R185). -/
def rowOffset (s : State) (row : Nat) : Nat := row * s.dstStride.toNat

/-- Submission attempts (R187): how many are made, from attempt `k` on with `fuel` left, and whether the last was answered
success. Attempt `k` is answered busy exactly when bit `k` of the mask is 1. -/
def dmaAttempts (busyMask : BitVec 8) : Nat → Nat → Nat × Bool
  | 0, _ => (0, false)
  | fuel + 1, k =>
    if busyMask.getLsbD k = false then (1, true)
    else ((dmaAttempts busyMask fuel (k + 1)).1 + 1, (dmaAttempts busyMask fuel (k + 1)).2)

/-- The submission of a line to a handle (R187, R308). -/
def submitEffect (s : State) (ch : Nat) (dstOff : Nat) : Effect :=
  .dmaSubmit ch s.srcOff s.srcBurst s.tail dstOff s.dstBurst s.dstStride

/-- A successful submission: what is still pending on the handle lands first, then the line is recorded (R187). -/
def recordTransfer (ch : Nat) (t : Transfer) (s : State) : Except Fault State :=
  match s.pendingAt ch with
  | none => .ok (emit (.dmaTrigger ch) (s.setPending ch (some t)))
  | some old =>
    match land s ch old with
    | .ok s1 => .ok (emit (.dmaTrigger ch) (s1.setPending ch (some t)))
    | .error f => .error f

/-- `CopyLine`, DMA path (R187). -/
def copyLineDma (row : Nat) (pay : List Byte) (busyMask : BitVec 8) (s : State) : Except Fault State :=
  let ch := s.rr.toNat
  let a := dmaAttempts busyMask s.prm.dmaRetry 0
  let s1 := emitAll (List.replicate a.1 (submitEffect s ch (rowOffset s row)))
    { s with rr := BitVec.ofNat 8 ((ch + 1) % s.prm.nch) }
  if a.2 then recordTransfer ch { buf := s.tail, off := rowOffset s row, bytes := lineWindow s pay } s1
  else .ok (traceLabel .droppedFrame { s1 with drop := true })

/-- `CopyLine` (R187, R188). -/
def copyLine (row : Nat) (pay : List Byte) (busyMask : BitVec 8) (s : State) : Except Fault State :=
  if s.dmaEn = false then fbWrite s s.tail (rowOffset s row) (lineWindow s pay)
  else copyLineDma row pay busyMask s

/-- `RasterFrameEnd` (R189). -/
def rasterFrameEnd (s : State) : State :=
  let s1 := { s with inFrame := false }
  if s.drop then clearBuf s1 s.tail
  else
    let b := s.buf s.tail
    let bflags := if s.dmaEn then setStored b.bflags flagInvalidate else b.bflags
    commit true (s1.setBuf s.tail { b with bflags := bflags })

/-- Is line `l` inside the vertical crop window (R184, R185)? -/
def inWindow (s : State) (l : Nat) : Bool :=
  decide ((cfgY s.cfg).toNat ≤ l) && decide (l < (cfgY s.cfg).toNat + (cfgV s.cfg).toNat)

/-- Counts an in-window line, dropped or not, and ends the frame at its last (R184, R186). -/
def countLine (s : State) : State :=
  let s1 := setWoff s s.tail ((s.buf s.tail).woff + 1#32)
  if (s1.buf s.tail).woff.toNat = (cfgV s.cfg).toNat then rasterFrameEnd s1 else s1

/-- `EV_LINE.RASTER` on an acted-on event (R184). -/
def rasterLineBody (busyMask : BitVec 8) (pay : List Byte) (s : State) : Except Fault State :=
  let l := s.line.toNat
  let s1 := { s with line := s.line + 1#32 }
  if inWindow s l then
    if s.drop then .ok (countLine s1)
    else
      match copyLine (l - (cfgY s.cfg).toNat) pay busyMask s1 with
      | .ok s2 => .ok (countLine s2)
      | .error f => .error f
  else .ok s1

/-- `EV_LINE.RASTER` (R184). An acted-on line of another length than `cfg.line_bytes` is outside the input contract
(R105, U8). -/
def execEvLineRaster (busyMask : BitVec 8) (s : State) : Host.Outcome State Fault Refusal :=
  if cfgEngine s.cfg ≠ .raster ∨ s.active = false ∨ s.inFrame = false then ignore s
  else if s.port.pay.length ≠ (cfgLineBytes s.cfg).toNat then .refused .lineLength
  else finish (rasterLineBody busyMask s.port.pay s)

/-! ## JPEG lines -/

/-- `JpegFrameEnd` (R193). -/
def jpegFrameEnd (s : State) : State :=
  emit .reqDisable { commit true { s with inFrame := false } with reqEn := false }

/-- `JpegOverflow` (R192). -/
def jpegOverflow (s : State) : State :=
  jpegFrameEnd (s.setBuf s.tail { s.buf s.tail with bflags := setStored (s.buf s.tail).bflags flagOverflow })

/-- Where the scan after an append starts: `max(old, 1) - 1` (R193). -/
def scanStart (old : Nat) : Nat := max old 1 - 1

/-- `EoiIn(old, new)` (R193): a marker `(m, m + 1)` with `scanStart old <= m` and `m + 1 < new`. -/
def eoiIn (s : State) (i : BitVec 8) (old new : Nat) : Bool :=
  (firstMarker s i (new - 1 - scanStart old) (scanStart old)).isSome

/-- The append, the scan and the end of the frame (R190, R191, R193). -/
def jpegAppend (pay : List Byte) (s : State) : Except Fault State :=
  let old := (s.buf s.tail).woff.toNat
  let new := old + jpegLen pay
  match fbWrite s s.tail old (jpegStream pay) with
  | .error f => .error f
  | .ok s1 =>
    let s2 := setWoff s1 s.tail (BitVec.ofNat 32 new)
    .ok (if eoiIn s2 s.tail old new then jpegFrameEnd s2 else s2)

/-- `EV_LINE.JPEG` on an acted-on event (R190). -/
def jpegLineBody (pay : List Byte) (s : State) : Except Fault State :=
  let s1 := { s with line := s.line + 1#32 }
  if s.prm.cap < (s.buf s.tail).woff.toNat + jpegLen pay then .ok (jpegOverflow s1) else jpegAppend pay s1

/-- `EV_LINE.JPEG` (R190); the mask is ignored. Outside the input contract: a line of another length than
`cfg.line_bytes` (U8) and a prefix that exceeds the line (U7). -/
def execEvLineJpeg (_busyMask : BitVec 8) (s : State) : Host.Outcome State Fault Refusal :=
  if cfgEngine s.cfg ≠ .raster ∨ s.active = false ∨ s.inFrame = false ∨ s.reqEn = false then ignore s
  else if s.port.pay.length ≠ (cfgLineBytes s.cfg).toNat then .refused .lineLength
  else if s.port.pay.length < jpegHeader + jpegLen s.port.pay then .refused .jpegPrefix
  else finish (jpegLineBody s.port.pay s)

/-! ## DMA completion -/

/-- `EV_DMA_DONE` (R194). -/
def execEvDmaDone (ch : BitVec 8) (s : State) : Host.Outcome State Fault Refusal :=
  if cfgEngine s.cfg ≠ .raster ∨ s.prm.nch ≤ ch.toNat then ignore s
  else
    match s.pendingAt ch.toNat with
    | none => ignore s
    | some t => finish (land s ch.toNat t)

end Sys2Proof.Machine
end

