-- ==== Sys2Proof/Machine/Pool.lean ====
section
/-! DEFINITION. The pool operations (spec/40_pool_ops.md, R131 to R139). -/

namespace Sys2Proof.Machine

/-- `SETUP_BUFFERS` after admission (R131). -/
def setupBuffersBody (s : State) : State :=
  if s.active then reject .illegalOp s else respond .ok none false (resetPool s)

/-- `SETUP_BUFFERS` (R131). -/
def execSetupBuffers (s : State) : Host.Outcome State Fault Refusal :=
  command (admitThread s true) s setupBuffersBody

/-- `ACQUIRE` after admission (R132). The candidate is always the buffer at `tail`. -/
def acquireBody (flags : BitVec 8) (s : State) : State :=
  if (s.buf s.tail).st = .free then
    respond .ok (some s.tail) false (if hasFlag flags flagPeek then s else takeTail s)
  else reject .noBuffer s

/-- `ACQUIRE` (R132). -/
def execAcquire (flags : BitVec 8) (s : State) : Host.Outcome State Fault Refusal :=
  command (admitProducer s (flagsLegal .acquire flags)) s (acquireBody flags)

/-- `RELEASE` after admission (R133). -/
def releaseBody (flags : BitVec 8) (s : State) : State :=
  if (s.buf s.tail).st ≠ .writing then respond .ok none false s
  else if hasFlag flags flagCheckLast ∧ s.wrValid = false then respond .ok (some s.tail) false s
  else respond .ok (some s.tail) true (commit (hasFlag flags flagCheckLast) s)

/-- `RELEASE` (R133). -/
def execRelease (flags : BitVec 8) (s : State) : Host.Outcome State Fault Refusal :=
  command (admitProducer s (flagsLegal .release flags)) s (releaseBody flags)

/-- The HELD mark of a taken buffer (R135, R264). -/
def holdHead (s : State) : State := s.setBuf s.head { s.buf s.head with st := .held }

/-- `GET_HEAD` after admission (R135). -/
def getHeadBody (flags : BitVec 8) (s : State) : State :=
  if (s.buf s.head).st = .readable then
    respond .ok (some s.head) false (if hasFlag flags flagPeek then s else holdHead s)
  else reject .noBuffer s

/-- `GET_HEAD` (R135). -/
def execGetHead (flags : BitVec 8) (s : State) : Host.Outcome State Fault Refusal :=
  command (admitThread s (flagsLegal .getHead flags)) s (getHeadBody flags)

/-- `GET_TAIL` (R136): inspection only. -/
def execGetTail (flags : BitVec 8) (s : State) : Host.Outcome State Fault Refusal :=
  command (admitThread s (flagsLegal .getTail flags)) s fun s => respond .ok (some s.tail) false s

/-- `RESET_BUF` after admission (R137). -/
def resetBufBody (idx : BitVec 8) (s : State) : State :=
  if s.nBufs ≤ idx.toNat ∨ (s.buf idx).st ≠ .writing then reject .illegalOp s
  else respond .ok (some idx) false (clearBuf s idx)

/-- `RESET_BUF` (R137). -/
def execResetBuf (idx : BitVec 8) (s : State) : Host.Outcome State Fault Refusal :=
  command (admitProducer s true) s (resetBufBody idx)

/-- The predicate of `READABLE` (R138, R142): some buffer below `N` is READABLE. -/
def anyReadable (s : State) : Bool := (s.bufs.take s.nBufs).any fun b => b.st == .readable

/-- `READABLE` (R138): legal in both contexts, before `INIT` and during a snapshot. -/
def execReadable (_ctx : Ctx) (s : State) : Host.Outcome State Fault Refusal :=
  .next (respond .ok none (anyReadable s) s)

/-- `FREE_CURRENT` after admission (R139). -/
def freeCurrentBody (s : State) : State :=
  if (s.buf s.head).st = .held then respond .ok (some s.head) true (freeHead s)
  else respond .ok none false s

/-- `FREE_CURRENT` (R139). -/
def execFreeCurrent (s : State) : Host.Outcome State Fault Refusal :=
  command (admitThread s true) s freeCurrentBody

end Sys2Proof.Machine
end

