-- ==== Sys2Proof/Machine/Control.lean ====
section
/-! DEFINITION. The control operations and the snapshot synchronizer (spec/44_snapshot_control.md). -/

namespace Sys2Proof.Machine

/-! ## Session control -/

/-- Aborts a running capture (R250, R253). -/
def abortIfActive (s : State) : State := if s.active then doAbort s else s

/-- The effects of a successful `INIT` (R250). -/
def initEffects (p : Params) (c : BitVec 160) : List Effect :=
  match cfgEngine c with
  | .serial => [.xferConfigure]
  | .raster => (List.range p.nch).map .dmaCreate
  | .none | .reserved => []

/-- Every buffer FREE, cursors, token and size 0 (R250, R253: all `NMAX` entries). -/
def freeAll (s : State) : State :=
  { s with bufs := s.bufs.map fun _ => Buf.reset, head := 0#8, tail := 0#8, wrValid := false, jpegSize := 0#32 }

/-- The session registers `INIT` clears (R250). -/
def clearSession (s : State) : State :=
  { s with
    active := false, resyncPending := false, expPid := 0#12, expSeg := 0#3,
    line := 0#32, inFrame := false, drop := false, reqEn := false, rr := 0#8,
    dstStride := 0#32, srcOff := 0#32, dstBurst := 1#6, srcBurst := 1#6, dmaEn := false,
    pending := s.pending.map fun _ => none, snap := .idle }

/-- Latches a legal configuration and resets the session (R250, R251). -/
def latchConfig (c : BitVec 160) (s : State) : State :=
  let s1 := clearSession (freeAll { s with cfg := c, multi := configMulti s.prm c })
  { emitAll (initEffects s.prm c) s1 with initialised := true }

/-- `INIT` after admission (R250). -/
def initBody (s : State) : State :=
  if configLegal s.prm s.port.cfgPort = false then reject .illegalConfig s
  else respond .ok none false (latchConfig s.port.cfgPort (abortIfActive s))

/-- `INIT` (R250). -/
def execInit (s : State) : Host.Outcome State Fault Refusal := command (admitInit s) s initBody

/-- `DEINIT` after admission (R253). -/
def deinitBody (s : State) : State :=
  respond .ok none false { freeAll (abortIfActive s) with resyncPending := false, initialised := false }

/-- `DEINIT` (R253). -/
def execDeinit (s : State) : Host.Outcome State Fault Refusal := command (admitThread s true) s deinitBody

/-- `ABORT` (R254). -/
def execAbort (s : State) : Host.Outcome State Fault Refusal :=
  command (admitThread s true) s fun s => respond .ok none false (doAbort s)

/-- `ACTIVE` (R255): legal in both contexts, before `INIT` and during a snapshot. -/
def execActive (_ctx : Ctx) (s : State) : Host.Outcome State Fault Refusal :=
  .next (respond .ok none s.active s)

/-! ## The snapshot -/

/-- `GeometryValid` (R261), in unbounded naturals. -/
def geometryValid (s : State) : Bool :=
  let bpp := bytesPerPixel s.prm (cfgPixCode s.cfg)
  let u := (cfgU s.cfg).toNat
  let v := (cfgV s.cfg).toNat
  let lb := (cfgLineBytes s.cfg).toNat
  match cfgEngine s.cfg with
  | .none => decide (u * v * bpp ≤ s.prm.cap)
  | .serial => decide (frameBytes s.prm s.multi ≤ s.prm.cap)
  | .raster =>
    decide (lb ≠ 0) && decide (lb % s.prm.dmaLenAlign = 0) && decide (lb ≤ s.prm.linebufCap) &&
    (if cfgPixFmt s.cfg = .jpeg then decide (2 ≤ lb)
     else decide (u ≠ 0) && decide (v ≠ 0) && decide (((cfgX s.cfg).toNat + u) * bpp ≤ lb) &&
       decide (u * v * bpp ≤ s.prm.cap))
  | .reserved => false

/-- The effects of `StartCapture` (R262). -/
def startEffects (c : BitVec 160) : List Effect :=
  match cfgEngine c with
  | .serial => [.xferStart]
  | .raster => [.hwProgram, .hwEnable]
  | .none | .reserved => []

/-- `StartCapture` (R262). -/
def startCapture (s : State) : State :=
  { emitAll (startEffects s.cfg) s with
    expPid := 0#12, expSeg := 0#3,
    line := 0#32, inFrame := false, drop := false, reqEn := false, rr := 0#8,
    active := true, resyncPending := false }

/-- Output width (R28, R265). -/
def outWidth (c : BitVec 160) : BitVec 16 := if cfgTranspose c then cfgV c else cfgU c

/-- Output height (R28, R265). -/
def outHeight (c : BitVec 160) : BitVec 16 := if cfgTranspose c then cfgU c else cfgV c

/-- The descriptor words of R98 for buffer `i` and a size. -/
def descriptorOf (s : State) (i : BitVec 8) (size : Word) : Descriptor where
  desc0 := outHeight s.cfg ++ outWidth s.cfg
  desc1 := size
  desc2 := 0#7 ++ BitVec.ofBool (storedFlag (s.buf i).bflags flagInvalidate) ++ i ++
    subfmtShift (cfgPixCode s.cfg) (cfgSubformat s.cfg) (cfgX s.cfg) (cfgY s.cfg) (cfgTranspose s.cfg) ++
    0#5 ++ cfgPixCode s.cfg

/-- `rsp(OK, idx = i)` with the descriptor (R265). -/
def describeWith (i : BitVec 8) (size : Word) (s : State) : State :=
  respond .ok (some i) false { s with out := { s.out with desc := some (descriptorOf s i size) } }

/-- The size of a frame that is not JPEG (R265). -/
def fixedSize (s : State) : Nat :=
  if cfgEngine s.cfg = .serial then frameBytes s.prm s.multi
  else (cfgU s.cfg).toNat * (cfgV s.cfg).toNat * bytesPerPixel s.prm (cfgPixCode s.cfg)

/-- `Describe(i)` (R265). The marker search reads only bytes of the buffer; a JPEG frame without a marker, which no run
delivers, has a free size (log 16). -/
def describe (i : BitVec 8) (s : State) : Except Fault State :=
  if cfgPixFmt s.cfg = .jpeg then
    let w := (s.buf i).woff.toNat
    if inStore s.prm i 0 w = false then .error .outsideStore
    else
      match firstMarker s i (w - 1) 0 with
      | some m => .ok (describeWith i (BitVec.ofNat 32 (m + 2)) { s with jpegSize := BitVec.ofNat 32 (m + 2) })
      | none =>
        .ok (describeWith i (Config.freeSize s.draws) { s with jpegSize := Config.freeSize s.draws, draws := s.draws + 1 })
  else .ok (describeWith i (BitVec.ofNat 32 (fixedSize s)) s)

/-- `Finalize` (R264). -/
def finalize (s : State) : Except Fault State :=
  if storedFlag (s.buf s.head).bflags flagOverflow then .ok (reject .overflow (freeHead (holdHead s)))
  else describe s.head (holdHead s)

/-- Has the caller's timeout elapsed (R263, R313)? -/
def timedOut (s : State) : Bool := decide (s.timeout.toNat ≤ (s.port.now - s.tStart).toNat)

/-- `WaitCheck` (R263). -/
def waitCheck (s : State) : Except Fault State :=
  if (s.buf s.head).st = .readable then
    match finalize s with
    | .ok s1 => .ok { s1 with snap := .idle }
    | .error f => .error f
  else if s.nonblock then .ok { reject .wouldBlock s with snap := .idle }
  else if timedOut s then .ok { reject .captureTimeout (doAbort s) with snap := .idle }
  else .ok (emit .yield s)

/-- Enters the wait loop and makes its first check (R256, R260, R267). -/
def enterWait (s : State) : Except Fault State := waitCheck { s with tStart := s.port.now, snap := .wait }

/-- `Arm` (R260). -/
def arm (s : State) : Except Fault State :=
  let s1 := resetPool s
  if geometryValid s1 = false then .ok (reject .invalidFrameSize s1)
  else
    let s2 := deriveBurst s1
    if cfgEngine s.cfg = .serial ∧ s.resyncPending = true then
      .ok (emit .yield { s2 with tRs := s.port.now, snap := .delay })
    else enterWait (startCapture s2)

/-- Step 1 of a snapshot (R259). -/
def returnHeld (s : State) : State := if (s.buf s.head).st = .held then freeHead s else s

/-- `SNAPSHOT` after admission (R256). -/
def snapshotBody (flags : BitVec 8) (s : State) : Except Fault State :=
  let s1 := { returnHeld s with nonblock := hasFlag flags flagNonblock, timeout := s.port.opw }
  if s.active then enterWait s1 else arm s1

/-- `SNAPSHOT` (R256). -/
def execSnapshot (flags : BitVec 8) (s : State) : Host.Outcome State Fault Refusal :=
  match admitThread s (flagsLegal .snapshot flags) with
  | some e => .next (reject e s)
  | none => finish (snapshotBody flags s)

/-- Has the resync delay elapsed (R267, R313)? -/
def delayOver (s : State) : Bool := decide (s.prm.resync ≤ (s.port.now - s.tRs).toNat)

/-- `EV_POLL` (R267). -/
def execEvPoll (s : State) : Host.Outcome State Fault Refusal :=
  match s.snap with
  | .idle => ignore s
  | .delay => if delayOver s then finish (enterWait (startCapture s)) else .next (emit .yield s)
  | .wait => finish (waitCheck s)

end Sys2Proof.Machine
end

