-- ==== Sys2Proof/Machine/Dispatch.lean ====
section
/-! DEFINITION. What each instruction does: one arm per constructor of Instr. -/

namespace Sys2Proof.Machine

/-- The meaning of an instruction in a state whose `port` holds the input being taken. -/
def exec (i : Instr) (s : State) : Host.Outcome State Fault Refusal :=
  match i with
  | .setupBuffers => Sys2Proof.Machine.execSetupBuffers s
  | .acquire flags => Sys2Proof.Machine.execAcquire flags s
  | .release flags => Sys2Proof.Machine.execRelease flags s
  | .getHead flags => Sys2Proof.Machine.execGetHead flags s
  | .getTail flags => Sys2Proof.Machine.execGetTail flags s
  | .resetBuf idx => Sys2Proof.Machine.execResetBuf idx s
  | .readable ctx => Sys2Proof.Machine.execReadable ctx s
  | .freeCurrent => Sys2Proof.Machine.execFreeCurrent s
  | .init => Sys2Proof.Machine.execInit s
  | .deinit => Sys2Proof.Machine.execDeinit s
  | .abort => Sys2Proof.Machine.execAbort s
  | .active ctx => Sys2Proof.Machine.execActive ctx s
  | .snapshot flags => Sys2Proof.Machine.execSnapshot flags s
  | .evPkt => Sys2Proof.Machine.execEvPkt s
  | .evSof throttleDrop => Sys2Proof.Machine.execEvSof throttleDrop s
  | .evLineRaster busyMask => Sys2Proof.Machine.execEvLineRaster busyMask s
  | .evLineJpeg busyMask => Sys2Proof.Machine.execEvLineJpeg busyMask s
  | .evDmaDone ch => Sys2Proof.Machine.execEvDmaDone ch s
  | .evPoll => Sys2Proof.Machine.execEvPoll s

end Sys2Proof.Machine
end

