-- ==== Sys2Proof/Machine/Inputs.lean ====
section
/-! DEFINITION. Taking an input (00_scope R11): the tick contract, the mode the decoder reads, presenting the input to the
block; and the pseudo-inputs of 30_encoding R111. -/

namespace Sys2Proof.Machine

/-- The tick source's contract (R11, R306, U12): `(NOW' - NOW) mod 2^32 < 2^31` between consecutive inputs. -/
def tickOk (last : Option Word) (now : Word) : Bool :=
  match last with
  | none => true
  | some t => decide ((now - t).toNat < 2147483648)

/-- The mode that selects the meaning of `EV_LINE` (R109): is the latched pixel format JPEG? -/
def jpegMode (s : State) : Bool := decide (cfgPixFmt s.cfg = .jpeg)

/-- The state in which the step of input `x` runs: `x` on the port, its output still empty. -/
def State.take (s : State) (x : Input) (rest : List Input) : State :=
  { s with port := x, inputs := rest, lastNow := some x.now, out := Output.empty }

/-- A step with no input: the block is idle and keeps all its state (R315, R331); it gives no output. -/
def State.idleStep (s : State) : State := { s with out := Output.empty }

/-- The input that carries word `w` at the tick of the last input, every other word 0 and no payload. -/
def Input.ofWord (last : Option Word) (w : Word) : Input := { Input.zero with w := w, now := last.getD 0#32 }

/-! Pseudo-inputs (R111). -/

/-- The two bytes of a 16-bit word, most significant first. -/
def be16Bytes (v : BitVec 16) : List Byte := [v.extractLsb' 8 8, v.extractLsb' 0 8]

/-- `PKT pid=<p> seg=<s> pix=<hex>` (R111). -/
def pktInput (now : Word) (pid : BitVec 12) (seg : BitVec 3) (pix : List Byte) : Input :=
  { Input.zero with w := encode .evPkt, now := now, pay := be16Bytes (0#1 ++ seg ++ pid) ++ [0x00#8, 0x00#8] ++ pix }

/-- `DC` (R111). -/
def dcInput (now : Word) (p : Params) : Input :=
  { Input.zero with
    w := encode .evPkt, now := now,
    pay := be16Bytes p.dcMatch ++ [0x00#8, 0x00#8] ++ List.replicate (payloadBytes p) 0x00#8 }

/-- `JLINE len=<L> data=<hex>` (R111), padded to `cfg.line_bytes`. -/
def jlineInput (now : Word) (lineBytes : Nat) (len : BitVec 16) (data : List Byte) : Input :=
  { Input.zero with
    w := encode (.evLineJpeg 0#8), now := now,
    pay := be16Bytes len ++ data ++ List.replicate (lineBytes - 2 - data.length) 0x00#8 }

/-- `SOF` (R111). -/
def sofInput (now : Word) : Input := { Input.zero with w := encode (.evSof false), now := now }

/-- `POLL` (R111). -/
def pollInput (now : Word) : Input := { Input.zero with w := encode .evPoll, now := now }

/-- `SNAPSHOT [NONBLOCK] timeout=<t>` (R110, R111). -/
def snapshotInput (now : Word) (flags : BitVec 8) (timeout : Word) : Input :=
  { Input.zero with w := encode (.snapshot flags), now := now, opw := timeout }

end Sys2Proof.Machine
end

