-- ==== Sys2Proof/Machine/Step.lean ====
section
/-! DEFINITION. One step of the block (00_scope R5, R11): the next input is taken, decoded and run. -/

namespace Sys2Proof.Machine

/-- One step. A word that is no command and no event is answered `IllegalOp` with no state change (R107, R108). A payload
on an input that R11 says carries none is not looked at: DESIGN CHOICE, log 34. -/
def step (s : State) : Host.Outcome State Fault Refusal :=
  match s.inputs with
  | [] => .next s.idleStep
  | x :: rest =>
    if tickOk s.lastNow x.now = false then .refused .tickRanBackwards
    else
      match decode (jpegMode s) x.w with
      | .ok i => exec i (s.take x rest)
      | .error _ => .next (reject .illegalOp (s.take x rest))

/-- The state with the instruction word `w` of `nbits` bits as the next input to be taken, in place of the next input if
there is one: operand word 0, no payload, configuration port 0, the tick of the last input (log 2). -/
def State.withFetchWord (s : State) (nbits w : Nat) : State :=
  { s with inputs := Input.ofWord s.lastNow (BitVec.ofNat 32 (w % 2 ^ nbits)) :: s.inputs.tail }

end Sys2Proof.Machine
end

