-- ==== Sys2Proof/Safety.lean ====
section
/-! DEFINITION. What the spec promises of the states a run reaches, in the terms the statements use: owners (10_state R21),
the ring shape (40_pool_ops R140), the session flags (10_state R30), the engines' hold on the buffer at `tail`
(43_sync_recovery R225), the bounds that keep every access inside the store (40_pool_ops R144), and the end of a run
(70_reset_and_hazards R349). -/

namespace Sys2Proof.Machine

/-- The three owners of a buffer (R21). -/
inductive Owner where
  | freePool
  | producer
  | consumer
  deriving DecidableEq, Repr

/-- The owner is a function of the state (R21, R141). -/
def BufState.owner : BufState → Owner
  | .free => .freePool
  | .writing => .producer
  | .readable => .consumer
  | .held => .consumer

/-- A run is over when no snapshot is in progress and nothing is pending (R349). -/
def State.runOver (s : State) : Bool := decide (s.snap = .idle) && s.pending.all fun t => t.isNone

/-- The state of the buffer `k` places after `head` in ring order (R140). -/
def ringAt (s : State) (k : Nat) : BufState := (s.buf (BitVec.ofNat 8 ((s.head.toNat + k) % s.nBufs))).st

/-- R140: from `head`, first `used` buffers of the consumer, of which only the first may be HELD; then, at `tail`, the one
buffer that may be WRITING; then FREE buffers. -/
def RingShape (s : State) : Prop :=
  s.head.toNat < s.nBufs ∧ s.tail.toNat < s.nBufs ∧
  ∃ used, used ≤ s.nBufs ∧ s.tail.toNat = (s.head.toNat + used) % s.nBufs ∧
    ∀ k, k < s.nBufs →
      (k < used → ringAt s k = .readable ∨ (k = 0 ∧ ringAt s k = .held)) ∧
      (k = used → ringAt s k = .free ∨ ringAt s k = .writing) ∧
      (used < k → ringAt s k = .free)

/-- The files have the sizes the parameters give them (R20, R38), and the parameters meet R6. -/
def SizesInv (s : State) : Prop :=
  s.prm.valid = true ∧ s.bufs.length = s.prm.nmax ∧ s.pending.length = s.prm.nch

/-- The session flags (R27, R30, R37, R228, R258). -/
def SessionInv (s : State) : Prop :=
  (s.initialised = false → s.active = false ∧ s.snap = .idle) ∧
  (s.resyncPending = true → s.active = false) ∧
  (s.snap = .delay → s.active = false ∧ s.resyncPending = true ∧ cfgEngine s.cfg = .serial) ∧
  (s.initialised = true → configLegal s.prm s.cfg = true ∧ s.multi = configMulti s.prm s.cfg)

/-- While capture is inactive the engines' counters and flags are clear and nothing is pending (R226, R44). -/
def QuietInv (s : State) : Prop :=
  s.active = false →
    s.expPid = 0#12 ∧ s.expSeg = 0#3 ∧ s.line = 0#32 ∧ s.inFrame = false ∧ s.drop = false ∧ s.reqEn = false ∧
    s.rr = 0#8 ∧ ∀ t, t ∈ s.pending → t = none

/-- The ring (R140) of an initialised block. -/
def RingInv (s : State) : Prop := s.initialised = true → RingShape s

/-- The running engine's hold on the buffer at `tail` (R161, R225): in the middle of a frame it is WRITING, and while it is
WRITING the hand-off token is valid; during the resync delay the freshly reset buffer at `tail` is still FREE (R260). -/
def EngineInv (s : State) : Prop :=
  (s.active = true → cfgEngine s.cfg = .serial → (s.expPid ≠ 0#12 ∨ s.expSeg ≠ 0#3) → (s.buf s.tail).st = .writing) ∧
  (s.active = true → cfgEngine s.cfg = .raster → s.inFrame = true → (s.buf s.tail).st = .writing) ∧
  (s.active = true → cfgEngine s.cfg ≠ .none → (s.buf s.tail).st = .writing → s.wrValid = true) ∧
  (s.snap = .delay → (s.buf s.tail).st = .free)

/-- The burst registers hold what `DeriveBurst` gives for the latched configuration (R35, R181). -/
def BurstsDerived (s : State) : Prop :=
  s.dstStride = (deriveBurst s).dstStride ∧ s.srcOff = (deriveBurst s).srcOff ∧
  s.dstBurst = (deriveBurst s).dstBurst ∧ s.srcBurst = (deriveBurst s).srcBurst ∧ s.dmaEn = (deriveBurst s).dmaEn

/-- What keeps every access inside the store (R31, R60, R144, R261). -/
def StoreInv (s : State) : Prop :=
  (s.active = true ∨ s.snap = .delay → geometryValid s = true ∧ BurstsDerived s) ∧
  s.expPid.toNat < s.prm.segPkts ∧ s.expSeg.toNat < segCount s.multi ∧ s.rr.toNat < s.prm.nch ∧
  (∀ t, some t ∈ s.pending → inStore s.prm t.buf t.off t.bytes.length = true) ∧
  (s.initialised = true → cfgPixFmt s.cfg = .jpeg → ∀ b, b ∈ s.bufs → b.woff.toNat ≤ s.prm.cap)

/-- Everything above, with the canonical form of the store's list of cells. -/
def Inv (s : State) : Prop :=
  SizesInv s ∧ SessionInv s ∧ QuietInv s ∧ RingInv s ∧ EngineInv s ∧ StoreInv s ∧ Memory.wf s.fb = true

/-- A state the block reaches from power-on reset when the outside world delivers some inputs. -/
def Reachable (s : State) : Prop :=
  ∃ (inputs : List Input) (n : Nat), Sys2Proof.core.run n { State.reset with inputs := inputs } = .next s

/-! ## The words of the statements. What a step leaves, written out field by field from the rules, without the
procedures of the machine. -/

/-- Admission of a thread command (30_encoding R112, checks 2 and 3). -/
abbrev ThreadReady (s : State) : Prop := s.initialised = true ∧ s.snap = .idle

/-- Admission of a command of the producer port (R112, checks 2 and 4). -/
abbrev ProducerReady (s : State) : Prop := s.initialised = true ∧ cfgEngine s.cfg = .none

/-- `s` with a response and nothing else changed. -/
def State.answered (s : State) (r : Response) : State := { s with out := { s.out with rsp := some r } }

/-- The answer OK about buffer `i` whose descriptor is `b` after the step (R96). -/
def okAbout (i : BitVec 8) (b : Buf) (did : Bool) : Response :=
  { rsp := rspWord 0x00#8 i b.bflags b.st.code did, rsp2 := b.woff }

/-- `s` with effects appended and nothing else changed (R113). -/
def State.called (s : State) (es : List Effect) : State := { s with out := { s.out with eff := s.out.eff ++ es } }

/-- `s` with a trace label appended and nothing else changed (R114). -/
def State.traced (s : State) (t : Trace) : State := { s with out := { s.out with tr := s.out.tr ++ [t] } }

/-- The completion callback of a commit, if one is registered (R134, R309). -/
def callbackOf (s : State) : List Effect := if cfgCbEn s.cfg then [.callback (cfgCbArg s.cfg)] else []

/-- The cursor after `i`: `(i + 1) mod N` (R12). -/
def after (s : State) (i : BitVec 8) : BitVec 8 := BitVec.ofNat 8 ((i.toNat + 1) % (cfgNBuffers s.cfg).toNat)

/-- The first `N` buffers FREE, cursors, token and size cleared; entries from `N` on kept (R131). -/
def poolReset (s : State) : State :=
  { s with
    bufs := List.replicate (cfgNBuffers s.cfg).toNat ⟨.free, 0#32, 0#3⟩ ++ s.bufs.drop (cfgNBuffers s.cfg).toNat,
    head := 0#8, tail := 0#8, wrValid := false, jpegSize := 0#32 }

/-- `m'` is `m` with the byte string stored at consecutive addresses from `a`: an address of the range holds its byte of
the string, every other address holds what it held. -/
def StoredAt (m m' : Memory) (a : Nat) (bytes : List Byte) : Prop :=
  ∀ k, Memory.get? m' k = if a ≤ k ∧ k < a + bytes.length then bytes[k - a]? else Memory.get? m k

/-- Is address `k` in the destination of some record of `ts`? -/
def InDestination (p : Params) (ts : List (Option Transfer)) (k : Nat) : Prop :=
  ∃ t, some t ∈ ts ∧ inStore p t.buf t.off t.bytes.length = true ∧
    fbKey t.buf.toNat t.off ≤ k ∧ k < fbKey t.buf.toNat t.off + t.bytes.length

/-- `u` is `s` after `DoAbort` (43_sync_recovery R226): the effects of the engine; a byte in the destination of a
cancelled transfer holds a free value drawn in this step and every other byte what it held; the session registers
cleared; nothing else changed. -/
def Aborted (s u : State) : Prop :=
  ∃ (m : Memory) (d : Nat),
    s.draws ≤ d ∧
    (∀ k, InDestination s.prm s.pending k →
      ∃ n, s.draws ≤ n ∧ n < d ∧ Memory.get? m k = some (Config.freeByte n)) ∧
    (∀ k, ¬ InDestination s.prm s.pending k → Memory.get? m k = Memory.get? s.fb k) ∧
    u = State.called
      { s with
        fb := m, draws := d, pending := List.replicate s.pending.length none,
        active := false, resyncPending := true, wrValid := false, expPid := 0#12, expSeg := 0#3,
        line := 0#32, inFrame := false, drop := false, reqEn := false, rr := 0#8 }
      (if cfgEngine s.cfg = .serial then [.xferAbort]
       else if cfgEngine s.cfg = .raster then .hwDisable :: (List.range s.prm.nch).map Effect.dmaIrqDisable
       else [])

/-- `GeometryValid` as R261 lists it. Engine code 3 is never latched (R252). -/
def GeometryOk (s : State) : Prop :=
  (cfgEngine s.cfg = .none →
    (cfgU s.cfg).toNat * (cfgV s.cfg).toNat * bytesPerPixel s.prm (cfgPixCode s.cfg) ≤ s.prm.cap) ∧
  (cfgEngine s.cfg = .serial →
    (if s.multi then 4 else 1) * s.prm.segPkts * s.prm.pktPix * s.prm.pixBytes ≤ s.prm.cap) ∧
  (cfgEngine s.cfg = .raster →
    (cfgLineBytes s.cfg).toNat ≠ 0 ∧ s.prm.dmaLenAlign ∣ (cfgLineBytes s.cfg).toNat ∧
    (cfgLineBytes s.cfg).toNat ≤ s.prm.linebufCap ∧
    (cfgPixFmt s.cfg = .jpeg → 2 ≤ (cfgLineBytes s.cfg).toNat) ∧
    (cfgPixFmt s.cfg ≠ .jpeg →
      (cfgU s.cfg).toNat ≠ 0 ∧ (cfgV s.cfg).toNat ≠ 0 ∧
      ((cfgX s.cfg).toNat + (cfgU s.cfg).toNat) * bytesPerPixel s.prm (cfgPixCode s.cfg) ≤ (cfgLineBytes s.cfg).toNat ∧
      (cfgU s.cfg).toNat * (cfgV s.cfg).toNat * bytesPerPixel s.prm (cfgPixCode s.cfg) ≤ s.prm.cap)) ∧
  cfgEngine s.cfg ≠ .reserved

/-- What is wrong with a configuration record (R252), one disjunct for each reason the rule names. -/
def IllegalConfig (p : Params) (c : BitVec 160) : Prop :=
  c.extractLsb' 0 2 = 3#2 ∨
  c.extractLsb' 2 3 = 0#3 ∨ c.extractLsb' 2 3 = 6#3 ∨ c.extractLsb' 2 3 = 7#3 ∨
  c.extractLsb' 16 8 = 0#8 ∨ p.nmax < (c.extractLsb' 16 8).toNat ∨
  c.extractLsb' 24 8 ≠ 0#8 ∨
  (c.extractLsb' 0 2 = 1#2 ∧
    (c.extractLsb' 112 16).toNat ≠ p.segPkts ∧ (c.extractLsb' 112 16).toNat ≠ 4 * p.segPkts) ∨
  (c.extractLsb' 2 3 = 5#3 ∧ c.extractLsb' 0 2 ≠ 2#2)

/-! Packets. -/

/-- An `EV_PKT` that is acted on and carries one packet (R102, R161). -/
abbrev PacketActs (s : State) : Prop :=
  cfgEngine s.cfg = .serial ∧ s.active = true ∧ s.port.pay.length = 4 + s.prm.pktPix * s.prm.pixBytes

/-- The packet matches the don't-care pattern (R104). -/
abbrev DontCarePacket (s : State) : Prop := packetIdw s.port.pay &&& s.prm.dcMask = s.prm.dcMatch

/-- The packet carries the segment id (R104). -/
abbrev SpecialPacket (s : State) : Prop := s.multi = true ∧ (packetPid s.port.pay).toNat = s.prm.specialPid

/-- Step 2 of R161 discards the packet (R222). -/
abbrev WaitingForPacketZero (s : State) : Prop := s.expPid = 0#12 ∧ packetPid s.port.pay ≠ 0#12

/-- Step 3 of R161 discards the packet (R223). -/
abbrev WaitingForSegmentZero (s : State) : Prop :=
  SpecialPacket s ∧ s.expSeg = 0#3 ∧ (packetWseg s.port.pay).toNat ≠ 0

/-- The three conditions of step 4 (R224). -/
abbrev GoodPacket (s : State) : Prop :=
  packetPid s.port.pay = s.expPid ∧ (cfgCrcEn s.cfg = false ∨ Config.check s.port.pay = true) ∧
  (SpecialPacket s → (packetWseg s.port.pay).toNat = s.expSeg.toNat)

/-- The first packet of a frame is expected (R161, step 5). -/
abbrev AtFrameStart (s : State) : Prop := s.expPid = 0#12 ∧ s.expSeg = 0#3

/-- The last packet of a frame is expected (R164). -/
abbrev AtFrameEnd (s : State) : Prop :=
  s.expPid.toNat + 1 = s.prm.segPkts ∧ s.expSeg.toNat + 1 = (if s.multi then 4 else 1)

/-- The producer can have the buffer at `tail` at a frame start (R225). -/
abbrev BufferAvailable (s : State) : Prop :=
  s.tail.toNat < s.bufs.length ∧
  ((s.buf s.tail).st = .free ∨ ((s.buf s.tail).st = .writing ∧ s.wrValid = true))

/-- The byte offset at which the expected packet is placed (R163). -/
def packetOffset (s : State) : Nat :=
  (s.expPid.toNat * s.prm.pktPix + s.expSeg.toNat * s.prm.segPkts * s.prm.pktPix) * s.prm.pixBytes

/-- The payload of the packet on the port (R102). -/
def payloadOf (s : State) : List Byte := (s.port.pay.drop 4).take (s.prm.pktPix * s.prm.pixBytes)

/-- The descriptor at `tail` after the expected packet is placed (R161, R163, R225). -/
def placedBuf (s : State) : Buf :=
  { (if AtFrameStart s then ⟨.writing, 0#32, 0#3⟩ else s.buf s.tail) with
    woff := BitVec.ofNat 32 (packetOffset s + s.prm.pktPix * s.prm.pixBytes) }

/-- The events that deliver an image as packets: packet `k` has the id word `ids k`, the check word `crcs k` (R102) and
carries bytes `[k * P * PB, (k + 1) * P * PB)` (R167). -/
def frameInputs (p : Params) (multi : Bool) (now : Word) (ids crcs : Nat → BitVec 16) (image : List Byte) : List Input :=
  (List.range (segCount multi * p.segPkts)).map fun k =>
    { Input.zero with
      w := encode .evPkt, now := now,
      pay := be16Bytes (ids k) ++ be16Bytes (crcs k) ++
        (image.drop (k * (p.pktPix * p.pixBytes))).take (p.pktPix * p.pixBytes) }

/-! Lines. -/

/-- An `EV_LINE` that is acted on and carries one line (R105, R184). -/
abbrev LineActs (s : State) : Prop :=
  cfgEngine s.cfg = .raster ∧ s.active = true ∧ s.inFrame = true ∧
  s.port.pay.length = (cfgLineBytes s.cfg).toNat

/-- The line is inside the vertical crop window (R185). -/
abbrev LineInWindow (s : State) : Prop :=
  (cfgY s.cfg).toNat ≤ s.line.toNat ∧ s.line.toNat < (cfgY s.cfg).toNat + (cfgV s.cfg).toNat

/-- The visible bytes of the line on the port (R185). -/
def visibleBytes (s : State) : List Byte := (s.port.pay.drop s.srcOff.toNat).take s.dstStride.toNat

/-- Where they go in the buffer (R185). -/
def rowStart (s : State) : Nat := (s.line.toNat - (cfgY s.cfg).toNat) * s.dstStride.toNat

/-- `t` is `u` after an in-window line is counted (R184, R186, R189): the line cursor advances; at `cfg.v` lines the frame
ends, dropped (buffer kept, cursor and flags cleared) or committed. -/
def LineCounted (u t : State) : Prop :=
  (((u.buf u.tail).woff + 1#32).toNat ≠ (cfgV u.cfg).toNat →
    t = { u with bufs := u.bufs.set u.tail.toNat { u.buf u.tail with woff := (u.buf u.tail).woff + 1#32 } }) ∧
  (((u.buf u.tail).woff + 1#32).toNat = (cfgV u.cfg).toNat → u.drop = true →
    t = { u with
      bufs := u.bufs.set u.tail.toNat { u.buf u.tail with woff := 0#32, bflags := 0#3 }, inFrame := false }) ∧
  (((u.buf u.tail).woff + 1#32).toNat = (cfgV u.cfg).toNat → u.drop = false →
    t = State.called
      { u with
        bufs := u.bufs.set u.tail.toNat
          { st := .readable, woff := (u.buf u.tail).woff + 1#32,
            bflags := (u.buf u.tail).bflags ||| (if u.dmaEn then 6#3 else 4#3) },
        inFrame := false, wrValid := false, tail := after u u.tail }
      (callbackOf u))

/-- An `EV_LINE.JPEG` that is acted on and carries one line with its prefix (R105, R190). -/
abbrev JpegLineActs (s : State) : Prop :=
  LineActs s ∧ s.reqEn = true ∧ 2 + jpegLen s.port.pay ≤ s.port.pay.length

/-- A marker lies at `m` of the buffer at `tail`, in the window scanned after an append from `old` to `new` (R193). -/
def MarkerFound (s : State) (old new : Nat) : Prop :=
  ∃ m, max old 1 - 1 ≤ m ∧ m + 1 < new ∧ fbByte s s.tail m = 0xFF#8 ∧ fbByte s s.tail (m + 1) = 0xD9#8

/-! Snapshots. -/

/-- `StartCapture` (R262). -/
def captureStarted (s : State) : State :=
  State.called
    { s with
      expPid := 0#12, expSeg := 0#3, line := 0#32, inFrame := false, drop := false, reqEn := false, rr := 0#8,
      active := true, resyncPending := false }
    (if cfgEngine s.cfg = .serial then [.xferStart]
     else if cfgEngine s.cfg = .raster then [.hwProgram, .hwEnable] else [])

/-- The wait loop entered at the tick on the port (R260, R267). -/
def waiting (s : State) : State := { s with tStart := s.port.now, snap := .wait }

/-- The caller's operands latched (R256). -/
def requested (s : State) (nonblock : Bool) : State := { s with nonblock := nonblock, timeout := s.port.opw }

/-- The flag byte of a snapshot (R92, R256). -/
def snapshotFlags (nonblock : Bool) : BitVec 8 := if nonblock then 0x20#8 else 0x00#8

/-- The burst registers as `DeriveBurst` gives them (R260, R181). -/
def burstsDerived (s : State) : State :=
  { s with
    dstStride := (deriveBurst s).dstStride, srcOff := (deriveBurst s).srcOff,
    dstBurst := (deriveBurst s).dstBurst, srcBurst := (deriveBurst s).srcBurst, dmaEn := (deriveBurst s).dmaEn }

/-- The frame at `head` delivered with a byte size: the buffer HELD, the snapshot over, the response and the descriptor of
R96, R98, R265. -/
def frameDelivered (s : State) (size : Word) : State :=
  { s with
    bufs := s.bufs.set s.head.toNat { s.buf s.head with st := .held }, snap := .idle,
    out := { s.out with
      rsp := some (okAbout s.head { s.buf s.head with st := .held } false),
      desc := some {
        desc0 := (if cfgTranspose s.cfg then cfgU s.cfg else cfgV s.cfg) ++
          (if cfgTranspose s.cfg then cfgV s.cfg else cfgU s.cfg),
        desc1 := size,
        desc2 := 0#7 ++ (s.buf s.head).bflags.extractLsb' 1 1 ++ s.head ++
          subfmtShift (cfgPixCode s.cfg) (cfgSubformat s.cfg) (cfgX s.cfg) (cfgY s.cfg) (cfgTranspose s.cfg) ++
          0#5 ++ cfgPixCode s.cfg } } }

end Sys2Proof.Machine
end

