-- ==== Sys2Proof/Certificates/Slice0/Obligations.lean ====
section
/-! DEFINITION. The statements for the provers, in the order of OBLIGATIONS.json: the encoding, the step, the pool
operations, session control, the snapshot, the packet engine, the line engine, and what every step keeps. The words they
use (`answered`, `Aborted`, `StoredAt`, ...) stand in Sys2Proof/Safety.lean. -/

open Sys2Proof Sys2Proof.Machine

/-! ## Encoding -/

/-- Decoding an encoded well-formed instruction gives it back (30_encoding R90, R94, R109), in the mode that selects the
meaning of `EV_LINE`. -/
def Obligations.DecodeOfEncode : Prop :=
  ∀ (jpeg : Bool) (i : Instr), i.wellFormed = true →
    (∀ m, i = .evLineRaster m → jpeg = false) → (∀ m, i = .evLineJpeg m → jpeg = true) →
    decode jpeg (encode i) = .ok i

/-- A word that decodes is the word of its instruction, and that instruction is well-formed: no bit of a word is dropped
and no two words share an instruction (R90, R94, R107, R108). -/
def Obligations.EncodeOfDecode : Prop :=
  ∀ (jpeg : Bool) (w : Word) (i : Instr), decode jpeg w = .ok i →
    encode i = w ∧ i.wellFormed = true ∧
    (∀ m, i = .evLineRaster m → jpeg = false) ∧ (∀ m, i = .evLineJpeg m → jpeg = true)

/-- Words written out from the encodings of R93 to R95 decode to their instructions. -/
def Obligations.WrittenWordsDecode : Prop :=
  decode false 0x00000001#32 = .ok .setupBuffers ∧
  decode false 0x80001802#32 = .ok (.acquire 0x18#8) ∧
  decode false 0x80000403#32 = .ok (.release 0x04#8) ∧
  decode false 0x80050006#32 = .ok (.resetBuf 0x05#8) ∧
  decode false 0x00000010#32 = .ok .init ∧
  decode false 0x00002014#32 = .ok (.snapshot 0x20#8) ∧
  decode false 0x80000080#32 = .ok .evPkt ∧
  decode false 0x80000181#32 = .ok (.evSof true) ∧
  decode false 0x80070082#32 = .ok (.evLineRaster 0x07#8) ∧
  decode true 0x80070082#32 = .ok (.evLineJpeg 0x07#8) ∧
  decode false 0x80000183#32 = .ok (.evDmaDone 0x01#8) ∧
  decode false 0x00000084#32 = .ok .evPoll

/-- R107: a command word with an opcode that is not in the table, a non-zero `zero` field, the wrong context, a flag bit
not accepted, a required flag clear, or a non-zero `idx` where none is taken is answered `IllegalOp` with nothing
changed. -/
def Obligations.IllegalCommandWordsAnswered : Prop :=
  ∀ (s : State) (x : Input) (rest : List Input), s.inputs = x :: rest → tickOk s.lastNow x.now = true →
    x.w.getLsbD 7 = false →
    let op := x.w.extractLsb' 0 8
    let flags := x.w.extractLsb' 8 8
    (op ∉ [0x01#8, 0x02#8, 0x03#8, 0x04#8, 0x05#8, 0x06#8, 0x07#8, 0x08#8, 0x10#8, 0x11#8, 0x12#8, 0x13#8, 0x14#8] ∨
     x.w.extractLsb' 24 7 ≠ 0#7 ∨
     (op ∈ [0x01#8, 0x04#8, 0x05#8, 0x08#8, 0x10#8, 0x11#8, 0x12#8, 0x14#8] ∧ x.w.getLsbD 31 = true) ∨
     (op ∈ [0x02#8, 0x03#8, 0x06#8] ∧ x.w.getLsbD 31 = false) ∨
     (op = 0x02#8 ∧ flags &&& 0xE7#8 ≠ 0#8) ∨ (op = 0x03#8 ∧ flags &&& 0xFB#8 ≠ 0#8) ∨
     (op ∈ [0x04#8, 0x05#8] ∧ flags &&& 0xEF#8 ≠ 0#8) ∨ (op = 0x14#8 ∧ flags &&& 0xDF#8 ≠ 0#8) ∨
     (op ∉ [0x02#8, 0x03#8, 0x04#8, 0x05#8, 0x14#8] ∧ flags ≠ 0#8) ∨
     (op = 0x02#8 ∧ flags &&& 0x08#8 = 0#8) ∨ (op = 0x05#8 ∧ flags &&& 0x10#8 = 0#8) ∨
     (op ≠ 0x06#8 ∧ x.w.extractLsb' 16 8 ≠ 0#8)) →
    step s = .next ((s.take x rest).answered { rsp := 0x0000FF10#32, rsp2 := 0#32 })

/-- R108: an event word with a code that is not in the table, a non-zero `zero` field, the wrong context or a non-zero
unused bit is answered `IllegalOp` with nothing changed. -/
def Obligations.ReservedEventWordsAnswered : Prop :=
  ∀ (s : State) (x : Input) (rest : List Input), s.inputs = x :: rest → tickOk s.lastNow x.now = true →
    x.w.getLsbD 7 = true →
    let op := x.w.extractLsb' 0 8
    let a := x.w.extractLsb' 8 8
    (op ∉ [0x80#8, 0x81#8, 0x82#8, 0x83#8, 0x84#8] ∨
     x.w.extractLsb' 24 7 ≠ 0#7 ∨
     (op ≠ 0x84#8 ∧ x.w.getLsbD 31 = false) ∨ (op = 0x84#8 ∧ x.w.getLsbD 31 = true) ∨
     (op = 0x81#8 ∧ a &&& 0xFE#8 ≠ 0#8) ∨ (op ∉ [0x81#8, 0x83#8] ∧ a ≠ 0#8) ∨
     (op ≠ 0x82#8 ∧ x.w.extractLsb' 16 8 ≠ 0#8)) →
    step s = .next ((s.take x rest).answered { rsp := 0x0000FF10#32, rsp2 := 0#32 })

/-- The fields of the response word (R96), of the packet-id word (R64, R103), of the JPEG length prefix (R63) and of the
configuration record (R100), with the codes of the engines (R100) and of the pixel formats (R101) and the bytes per pixel
of each raster format (R6, R101). -/
def Obligations.FieldLayouts : Prop :=
  (∀ (status idx : BitVec 8) (bflags : BitVec 3) (bstate : BitVec 2) (b : Bool),
    (rspWord status idx bflags bstate b).toNat =
      status.toNat + idx.toNat * 2 ^ 8 + bflags.toNat * 2 ^ 16 + bstate.toNat * 2 ^ 24 + b.toNat * 2 ^ 26) ∧
  (∀ (b0 b1 : Byte) (rest : List Byte),
    (packetPid (b0 :: b1 :: rest)).toNat = (b0.toNat % 16) * 256 + b1.toNat ∧
    (packetWseg (b0 :: b1 :: rest)).toNat = b0.toNat / 16 % 8 ∧
    jpegLen (b0 :: b1 :: rest) = b0.toNat * 256 + b1.toNat) ∧
  (∀ c : BitVec 160,
    (cfgTranspose c = true ↔ c.toNat / 2 ^ 5 % 2 = 1) ∧ (cfgCrcEn c = true ↔ c.toNat / 2 ^ 6 % 2 = 1) ∧
    (cfgCbEn c = true ↔ c.toNat / 2 ^ 7 % 2 = 1) ∧
    (cfgSubformat c).toNat = c.toNat / 2 ^ 8 % 2 ^ 8 ∧ (cfgNBuffers c).toNat = c.toNat / 2 ^ 16 % 2 ^ 8 ∧
    (cfgReserved c).toNat = c.toNat / 2 ^ 24 % 2 ^ 8 ∧
    (cfgX c).toNat = c.toNat / 2 ^ 32 % 2 ^ 16 ∧ (cfgY c).toNat = c.toNat / 2 ^ 48 % 2 ^ 16 ∧
    (cfgU c).toNat = c.toNat / 2 ^ 64 % 2 ^ 16 ∧ (cfgV c).toNat = c.toNat / 2 ^ 80 % 2 ^ 16 ∧
    (cfgLineBytes c).toNat = c.toNat / 2 ^ 96 % 2 ^ 16 ∧ (cfgPpf c).toNat = c.toNat / 2 ^ 112 % 2 ^ 16 ∧
    (cfgCbArg c).toNat = c.toNat / 2 ^ 128 % 2 ^ 32 ∧
    (cfgEngine c = .none ↔ c.toNat % 4 = 0) ∧ (cfgEngine c = .serial ↔ c.toNat % 4 = 1) ∧
    (cfgEngine c = .raster ↔ c.toNat % 4 = 2) ∧ (cfgEngine c = .reserved ↔ c.toNat % 4 = 3) ∧
    (cfgPixCode c).toNat = c.toNat / 2 ^ 2 % 2 ^ 3 ∧
    (cfgPixFmt c = .grayscale ↔ cfgPixCode c = 1#3) ∧ (cfgPixFmt c = .rgb ↔ cfgPixCode c = 2#3) ∧
    (cfgPixFmt c = .yuv ↔ cfgPixCode c = 3#3) ∧ (cfgPixFmt c = .bayer ↔ cfgPixCode c = 4#3) ∧
    (cfgPixFmt c = .jpeg ↔ cfgPixCode c = 5#3) ∧
    (cfgPixFmt c = .reserved ↔ cfgPixCode c = 0#3 ∨ cfgPixCode c = 6#3 ∨ cfgPixCode c = 7#3)) ∧
  (∀ p : Params,
    bytesPerPixel p 1#3 = p.bppGray ∧ bytesPerPixel p 2#3 = p.bppRgb ∧ bytesPerPixel p 3#3 = p.bppYuv ∧
    bytesPerPixel p 4#3 = p.bppBayer)

/-! ## The step and reset -/

/-- The next input whose word decodes to a well-formed instruction is run by `exec`, in the state that holds the input on
the port, the rest of the inputs, the input's tick and an empty output (00_scope R5, R11). The model's own choices: with
no input a step only clears the output (log 2), and an input whose tick runs backwards, which U12 of
93_implementation_defined puts outside the contract, is refused by name (log 10). -/
def Obligations.StepRunsDecoded : Prop :=
  (∀ (s : State) (x : Input) (rest : List Input) (i : Instr), s.inputs = x :: rest → tickOk s.lastNow x.now = true →
    decode (decide (cfgPixFmt s.cfg = .jpeg)) x.w = .ok i →
    step s = exec i { s with port := x, inputs := rest, lastNow := some x.now, out := ⟨none, none, [], []⟩ }) ∧
  (∀ s : State, s.inputs = [] → step s = .next { s with out := ⟨none, none, [], []⟩ }) ∧
  (∀ (s : State) (x : Input) (rest : List Input) (t : Word), s.inputs = x :: rest → s.lastNow = some t →
    2 ^ 31 ≤ (x.now - t).toNat → step s = .refused .tickRanBackwards)

/-- R331: every register at power-on reset; there every event is ignored and every command but `INIT`, `ACTIVE` and
`READABLE` is answered `NotInitialised`. -/
def Obligations.PowerOnReset : Prop :=
  (State.reset.initialised = false ∧ State.reset.cfg = 0#160 ∧
   State.reset.bufs = List.replicate State.reset.prm.nmax ⟨.free, 0#32, 0#3⟩ ∧
   State.reset.head = 0#8 ∧ State.reset.tail = 0#8 ∧ State.reset.wrValid = false ∧ State.reset.jpegSize = 0#32 ∧
   State.reset.active = false ∧ State.reset.resyncPending = false ∧
   State.reset.expPid = 0#12 ∧ State.reset.expSeg = 0#3 ∧ State.reset.multi = false ∧
   State.reset.drop = false ∧ State.reset.inFrame = false ∧ State.reset.reqEn = false ∧ State.reset.line = 0#32 ∧
   State.reset.dstStride = 0#32 ∧ State.reset.srcOff = 0#32 ∧
   State.reset.dstBurst = 1#6 ∧ State.reset.srcBurst = 1#6 ∧ State.reset.dmaEn = false ∧ State.reset.rr = 0#8 ∧
   State.reset.pending = List.replicate State.reset.prm.nch none ∧ State.reset.snap = .idle ∧
   State.reset.tRs = 0#32 ∧ State.reset.tStart = 0#32 ∧ State.reset.timeout = 0#32 ∧ State.reset.nonblock = false ∧
   State.reset.fb = [] ∧ State.reset.out.eff = []) ∧
  ∀ (x : Input) (i : Instr), i.wellFormed = true →
    (i.opcode.code.getLsbD 7 = true →
      exec i (State.reset.take x []) = .next (State.reset.take x [])) ∧
    (i.opcode.code.getLsbD 7 = false → i.opcode ∉ [.init, .active, .readable] →
      exec i (State.reset.take x []) =
        .next ((State.reset.take x []).answered { rsp := 0x0000FF12#32, rsp2 := 0#32 }))

/-- R258: while `initialised = 0`, every command other than `INIT`, `ACTIVE` and `READABLE` is answered `NotInitialised`
with nothing changed and every event is ignored. -/
def Obligations.NotInitialised : Prop :=
  ∀ (s : State) (i : Instr), SessionInv s → QuietInv s → s.initialised = false → i.wellFormed = true →
    (i.opcode.code.getLsbD 7 = true → exec i s = .next s) ∧
    (i.opcode.code.getLsbD 7 = false → i.opcode ∉ [.init, .active, .readable] →
      exec i s = .next (s.answered { rsp := 0x0000FF12#32, rsp2 := 0#32 }))

/-- R112, R257: the first failing check of a command word gives the response, with nothing changed: undecodable;
`NotInitialised`; `Busy` for the thread; `IllegalOp` on the producer port of a configured engine. -/
def Obligations.AdmissionOrder : Prop :=
  ∀ (s : State) (x : Input) (rest : List Input), s.inputs = x :: rest → tickOk s.lastNow x.now = true →
    x.w.getLsbD 7 = false →
    ((decode (jpegMode s) x.w).toOption = none →
      step s = .next ((s.take x rest).answered { rsp := 0x0000FF10#32, rsp2 := 0#32 })) ∧
    ∀ i, decode (jpegMode s) x.w = .ok i →
      (s.initialised = false → i.opcode ∉ [.init, .active, .readable] →
        step s = .next ((s.take x rest).answered { rsp := 0x0000FF12#32, rsp2 := 0#32 })) ∧
      (s.initialised = true ∨ i.opcode = .init → x.w.getLsbD 31 = false → s.snap ≠ .idle →
        i.opcode ∉ [.active, .readable] →
        step s = .next ((s.take x rest).answered { rsp := 0x0000FF11#32, rsp2 := 0#32 })) ∧
      (s.initialised = true → x.w.getLsbD 31 = true → i.opcode ∈ [.acquire, .release, .resetBuf] →
        cfgEngine s.cfg ≠ .none →
        step s = .next ((s.take x rest).answered { rsp := 0x0000FF10#32, rsp2 := 0#32 }))

/-! ## The pool -/

/-- R131: `SETUP_BUFFERS` sets the first `N` buffers FREE and clears cursors, token and size, and nothing else; while
capture is active it is answered `IllegalOp` with nothing changed. -/
def Obligations.SetupBuffersResetsPool : Prop :=
  encode .setupBuffers = 0x00000001#32 ∧
  ∀ s : State, ThreadReady s → (cfgNBuffers s.cfg).toNat ≤ s.bufs.length →
    exec .setupBuffers s = .next
      (if s.active then s.answered { rsp := 0x0000FF10#32, rsp2 := 0#32 }
       else (poolReset s).answered { rsp := 0x0000FF00#32, rsp2 := 0#32 })

/-- R132: `ACQUIRE FREE` takes the FREE buffer at `tail` for writing, `ACQUIRE FREE|PEEK` only reports it; without a FREE
buffer at `tail` the answer is `NoBuffer` with nothing changed. -/
def Obligations.AcquireTakesTail : Prop :=
  encode (.acquire 0x08#8) = 0x80000802#32 ∧ encode (.acquire 0x18#8) = 0x80001802#32 ∧
  ∀ s : State, ProducerReady s → s.tail.toNat < s.bufs.length →
    ((s.buf s.tail).st = .free →
      exec (.acquire 0x08#8) s = .next
        (State.answered { s with bufs := s.bufs.set s.tail.toNat ⟨.writing, 0#32, 0#3⟩, wrValid := true }
          (okAbout s.tail ⟨.writing, 0#32, 0#3⟩ false)) ∧
      exec (.acquire 0x18#8) s = .next (s.answered (okAbout s.tail (s.buf s.tail) false))) ∧
    ((s.buf s.tail).st ≠ .free → ∀ flags, flags = 0x08#8 ∨ flags = 0x18#8 →
      exec (.acquire flags) s = .next (s.answered { rsp := 0x0000FF07#32, rsp2 := 0#32 }))

/-- R133, R134: `RELEASE` commits the WRITING buffer at `tail`: READABLE, token cleared, `tail` advanced, callback called;
the checked form records itself and is a no-op when the token is invalid; with nothing being written it is a no-op. -/
def Obligations.ReleaseCommits : Prop :=
  encode (.release 0x00#8) = 0x80000003#32 ∧ encode (.release 0x04#8) = 0x80000403#32 ∧
  ∀ (s : State) (checked : Bool), ProducerReady s →
    let flags := if checked then 0x04#8 else 0x00#8
    let b : Buf :=
      { s.buf s.tail with
        st := .readable, bflags := if checked then (s.buf s.tail).bflags ||| 4#3 else (s.buf s.tail).bflags }
    ((s.buf s.tail).st ≠ .writing →
      exec (.release flags) s = .next (s.answered { rsp := 0x0000FF00#32, rsp2 := 0#32 })) ∧
    ((s.buf s.tail).st = .writing → checked = true → s.wrValid = false →
      exec (.release flags) s = .next (s.answered (okAbout s.tail (s.buf s.tail) false))) ∧
    ((s.buf s.tail).st = .writing → (checked = false ∨ s.wrValid = true) →
      exec (.release flags) s = .next
        (State.answered
          (State.called
            { s with bufs := s.bufs.set s.tail.toNat b, wrValid := false, tail := after s s.tail } (callbackOf s))
          (okAbout s.tail b true)))

/-- R135: `GET_HEAD` takes the READABLE buffer at `head`, with `PEEK` only reports it; otherwise the answer is `NoBuffer`
with nothing changed. -/
def Obligations.GetHeadTakesOldest : Prop :=
  encode (.getHead 0x00#8) = 0x00000004#32 ∧ encode (.getHead 0x10#8) = 0x00001004#32 ∧
  ∀ s : State, ThreadReady s →
    ((s.buf s.head).st = .readable →
      exec (.getHead 0x00#8) s = .next
        (State.answered { s with bufs := s.bufs.set s.head.toNat { s.buf s.head with st := .held } }
          (okAbout s.head { s.buf s.head with st := .held } false)) ∧
      exec (.getHead 0x10#8) s = .next (s.answered (okAbout s.head (s.buf s.head) false))) ∧
    ((s.buf s.head).st ≠ .readable → ∀ flags, flags = 0x00#8 ∨ flags = 0x10#8 →
      exec (.getHead flags) s = .next (s.answered { rsp := 0x0000FF07#32, rsp2 := 0#32 }))

/-- R136: `GET_TAIL PEEK` reports the buffer at `tail` and changes nothing. -/
def Obligations.GetTailReports : Prop :=
  encode (.getTail 0x10#8) = 0x00001005#32 ∧
  ∀ s : State, ThreadReady s →
    exec (.getTail 0x10#8) s = .next (s.answered (okAbout s.tail (s.buf s.tail) false))

/-- R137: `RESET_BUF` clears the cursor and the flags of a WRITING buffer below `N` and keeps its owner; any other index is
answered `IllegalOp` with nothing changed. -/
def Obligations.ResetBufClearsWriting : Prop :=
  (∀ idx, encode (.resetBuf idx) = 0x80000006#32 ||| (idx.setWidth 32 <<< 16)) ∧
  ∀ (s : State) (idx : BitVec 8), ProducerReady s →
    (idx.toNat < (cfgNBuffers s.cfg).toNat → (s.buf idx).st = .writing →
      exec (.resetBuf idx) s = .next
        (State.answered { s with bufs := s.bufs.set idx.toNat ⟨.writing, 0#32, 0#3⟩ }
          (okAbout idx ⟨.writing, 0#32, 0#3⟩ false))) ∧
    ((cfgNBuffers s.cfg).toNat ≤ idx.toNat ∨ (s.buf idx).st ≠ .writing →
      exec (.resetBuf idx) s = .next (s.answered { rsp := 0x0000FF10#32, rsp2 := 0#32 }))

/-- R138, R142: `READABLE`, in every state and from both contexts, answers whether some buffer below `N` is READABLE, and
changes nothing. -/
def Obligations.ReadableIsPredicate : Prop :=
  encode (.readable .thread) = 0x00000007#32 ∧ encode (.readable .interrupt) = 0x80000007#32 ∧
  ∀ (s : State) (c : Ctx),
    ((∃ i, i < (cfgNBuffers s.cfg).toNat ∧ (s.buf (BitVec.ofNat 8 i)).st = .readable) →
      exec (.readable c) s = .next (s.answered { rsp := 0x0400FF00#32, rsp2 := 0#32 })) ∧
    ((¬ ∃ i, i < (cfgNBuffers s.cfg).toNat ∧ (s.buf (BitVec.ofNat 8 i)).st = .readable) →
      exec (.readable c) s = .next (s.answered { rsp := 0x0000FF00#32, rsp2 := 0#32 }))

/-- R139: `FREE_CURRENT` frees the HELD buffer at `head` and moves `head` past it; with nothing held it is a no-op. -/
def Obligations.FreeCurrentFrees : Prop :=
  encode .freeCurrent = 0x00000008#32 ∧
  ∀ s : State, ThreadReady s →
    ((s.buf s.head).st = .held →
      exec .freeCurrent s = .next
        (State.answered
          { s with bufs := s.bufs.set s.head.toNat { s.buf s.head with st := .free }, head := after s s.head }
          (okAbout s.head { s.buf s.head with st := .free } true))) ∧
    ((s.buf s.head).st ≠ .held →
      exec .freeCurrent s = .next (s.answered { rsp := 0x0000FF00#32, rsp2 := 0#32 }))

/-! ## Session control -/

/-- R252: a configuration record with any of the listed faults is answered `IllegalConfig` and nothing is changed. -/
def Obligations.InitRefusesIllegalConfig : Prop :=
  ∀ s : State, s.snap = .idle → IllegalConfig s.prm s.port.cfgPort →
    exec .init s = .next (s.answered { rsp := 0x0000FF13#32, rsp2 := 0#32 })

/-- R250, R251: every other record is latched: a running capture is aborted first, then every session register has its
INIT value; buffer bytes are kept but for the destinations of cancelled transfers. -/
def Obligations.InitLatchesConfig : Prop :=
  encode .init = 0x00000010#32 ∧
  ∀ s : State, s.snap = .idle → ¬ IllegalConfig s.prm s.port.cfgPort →
    let c := s.port.cfgPort
    ∃ u : State, (s.active = true → Aborted s u) ∧ (s.active = false → u = s) ∧
      exec .init s = .next
        (State.answered
          (State.called
            { u with
              initialised := true, cfg := c,
              multi := decide (c.extractLsb' 0 2 = 1#2 ∧ (c.extractLsb' 112 16).toNat = 4 * s.prm.segPkts),
              bufs := List.replicate s.bufs.length ⟨.free, 0#32, 0#3⟩,
              head := 0#8, tail := 0#8, wrValid := false, jpegSize := 0#32,
              active := false, resyncPending := false, expPid := 0#12, expSeg := 0#3,
              line := 0#32, inFrame := false, drop := false, reqEn := false, rr := 0#8,
              dstStride := 0#32, srcOff := 0#32, dstBurst := 1#6, srcBurst := 1#6, dmaEn := false,
              pending := List.replicate s.pending.length none, snap := .idle }
            (if c.extractLsb' 0 2 = 1#2 then [.xferConfigure]
             else if c.extractLsb' 0 2 = 2#2 then (List.range s.prm.nch).map Effect.dmaCreate else []))
          { rsp := 0x0000FF00#32, rsp2 := 0#32 })

/-- R253: `DEINIT` aborts a running capture, frees every buffer and leaves the block uninitialised. -/
def Obligations.DeinitTearsDown : Prop :=
  encode .deinit = 0x00000011#32 ∧
  ∀ s : State, ThreadReady s →
    ∃ u : State, (s.active = true → Aborted s u) ∧ (s.active = false → u = s) ∧
      exec .deinit s = .next
        (State.answered
          { u with
            bufs := List.replicate s.bufs.length ⟨.free, 0#32, 0#3⟩, head := 0#8, tail := 0#8, wrValid := false,
            jpegSize := 0#32, resyncPending := false, initialised := false }
          { rsp := 0x0000FF00#32, rsp2 := 0#32 })

/-- R226, R254: `ABORT` runs `DoAbort` and answers OK, capture running or not; a second one changes nothing but the
output. -/
def Obligations.AbortIsIdempotent : Prop :=
  encode .abort = 0x00000012#32 ∧
  ∀ s : State, ThreadReady s →
    ∃ u : State, Aborted s u ∧
      exec .abort s = .next (u.answered { rsp := 0x0000FF00#32, rsp2 := 0#32 }) ∧
      ∃ o : Output, exec .abort (u.answered { rsp := 0x0000FF00#32, rsp2 := 0#32 }) = .next { u with out := o }

/-- R255: `ACTIVE`, in every state and from both contexts, answers `active` and changes nothing. -/
def Obligations.ActiveIsPredicate : Prop :=
  encode (.active .thread) = 0x00000013#32 ∧ encode (.active .interrupt) = 0x80000013#32 ∧
  ∀ (s : State) (c : Ctx),
    exec (.active c) s =
      .next (s.answered { rsp := if s.active then 0x0400FF00#32 else 0x0000FF00#32, rsp2 := 0#32 })

/-! ## The snapshot -/

/-- R259: a snapshot with the buffer at `head` HELD is the snapshot of the state in which that buffer is FREE and `head`
has moved past it. -/
def Obligations.SnapshotReturnsHeld : Prop :=
  ∀ (s : State) (nb : Bool), ThreadReady s → (s.buf s.head).st = .held →
    (after s s.head = s.head ∨ (s.buf (after s s.head)).st ≠ .held) →
    exec (.snapshot (snapshotFlags nb)) s =
      exec (.snapshot (snapshotFlags nb))
        { s with bufs := s.bufs.set s.head.toNat { s.buf s.head with st := .free }, head := after s s.head }

/-- R256: with capture active and nothing held, a snapshot latches its operands, enters the wait loop at `NOW` and makes
the first check of the loop. -/
def Obligations.SnapshotWhileActive : Prop :=
  encode (.snapshot 0x00#8) = 0x00000014#32 ∧ encode (.snapshot 0x20#8) = 0x00002014#32 ∧
  ∀ (s : State) (nb : Bool), ThreadReady s → s.active = true → (s.buf s.head).st ≠ .held →
    exec (.snapshot (snapshotFlags nb)) s = exec .evPoll (waiting (requested s nb))

/-- R260, R262: with capture inactive, nothing held, a valid geometry and no serial resync pending, a snapshot resets the
pool, derives the burst registers, starts capture, enters the wait loop at `NOW`, and completes. -/
def Obligations.SnapshotArms : Prop :=
  ∀ (s : State) (nb : Bool), ThreadReady s → s.active = false → (s.buf s.head).st ≠ .held →
    0 < (cfgNBuffers s.cfg).toNat → (cfgNBuffers s.cfg).toNat ≤ s.bufs.length → GeometryOk s →
    ¬ (cfgEngine s.cfg = .serial ∧ s.resyncPending = true) →
    ∃ t, exec (.snapshot (snapshotFlags nb)) s = .next t ∧
      exec .evPoll (waiting (captureStarted (burstsDerived (poolReset (requested s nb))))) = .next t

/-- R260, R261, R294: with capture inactive, nothing held and a geometry that fails a test of R261, a snapshot resets the
pool, answers `InvalidFrameSize` and changes nothing else. -/
def Obligations.SnapshotInvalidGeometry : Prop :=
  ∀ (s : State) (nb : Bool), ThreadReady s → s.active = false → (s.buf s.head).st ≠ .held →
    (cfgNBuffers s.cfg).toNat ≤ s.bufs.length → ¬ GeometryOk s →
    exec (.snapshot (snapshotFlags nb)) s =
      .next ((poolReset (requested s nb)).answered { rsp := 0x0000FF03#32, rsp2 := 0#32 })

/-- R260: with a resync pending on the serial engine, a snapshot resets the pool, notes the tick, enters DELAY and yields;
blocking and non-blocking alike. -/
def Obligations.SnapshotDelaysResync : Prop :=
  ∀ (s : State) (nb : Bool), ThreadReady s → s.active = false → (s.buf s.head).st ≠ .held →
    (cfgNBuffers s.cfg).toNat ≤ s.bufs.length → GeometryOk s → cfgEngine s.cfg = .serial → s.resyncPending = true →
    exec (.snapshot (snapshotFlags nb)) s = .next
      (State.called
        { poolReset (requested s nb) with
          dstStride := 0#32, srcOff := 0#32, dstBurst := 1#6, srcBurst := 1#6, dmaEn := false,
          tRs := s.port.now, snap := .delay }
        [.yield])

/-- R228, R267: a poll in DELAY yields until `T_RESYNC` milliseconds after the delay began, then starts capture and makes
the first check of the wait loop; a poll in IDLE is ignored. -/
def Obligations.PollEndsDelay : Prop :=
  encode .evPoll = 0x00000084#32 ∧
  ∀ s : State,
    (s.snap = .idle → exec .evPoll s = .next s) ∧
    (s.snap = .delay → (s.port.now - s.tRs).toNat < s.prm.resync →
      exec .evPoll s = .next (s.called [.yield])) ∧
    (s.snap = .delay → s.prm.resync ≤ (s.port.now - s.tRs).toNat → (s.buf s.head).st ≠ .readable →
      ∃ t, exec .evPoll s = .next t ∧ exec .evPoll (waiting (captureStarted s)) = .next t)

/-- R263, R292, R293: a check of the wait loop that finds no frame: `WouldBlock` for a non-blocking snapshot, with nothing
changed but `snap`; `CaptureTimeout` after an abort once the timeout has elapsed; a yield before that. -/
def Obligations.PollWithoutFrame : Prop :=
  ∀ s : State, s.snap = .wait → (s.buf s.head).st ≠ .readable →
    (s.nonblock = true →
      exec .evPoll s = .next (State.answered { s with snap := .idle } { rsp := 0x0000FF01#32, rsp2 := 0#32 })) ∧
    (s.nonblock = false → s.timeout.toNat ≤ (s.port.now - s.tStart).toNat →
      ∃ u, Aborted s u ∧
        exec .evPoll s = .next (State.answered { u with snap := .idle } { rsp := 0x0000FF02#32, rsp2 := 0#32 })) ∧
    (s.nonblock = false → (s.port.now - s.tStart).toNat < s.timeout.toNat →
      exec .evPoll s = .next (s.called [.yield]))

/-- R264, R295: a READABLE buffer flagged OVERFLOW is freed and answered `Overflow`, without a descriptor; capture is not
aborted. -/
def Obligations.PollOverflow : Prop :=
  ∀ s : State, s.snap = .wait → (s.buf s.head).st = .readable → (s.buf s.head).bflags.getLsbD 0 = true →
    exec .evPoll s = .next
      (State.answered
        { s with
          bufs := s.bufs.set s.head.toNat { s.buf s.head with st := .free }, head := after s s.head, snap := .idle }
        { rsp := 0x0000FF04#32, rsp2 := 0#32 })

/-- R265: a READABLE buffer of the serial or the raster engine, or of none, is delivered whole, whatever the caller's
timeout and non-blocking request say: HELD, described with the size of its frame. -/
def Obligations.PollDeliversFrame : Prop :=
  ∀ s : State, s.snap = .wait → (s.buf s.head).st = .readable → (s.buf s.head).bflags.getLsbD 0 = false →
    cfgPixFmt s.cfg ≠ .jpeg →
    exec .evPoll s = .next
      (frameDelivered s
        (BitVec.ofNat 32
          (if cfgEngine s.cfg = .serial then
            (if s.multi then 4 else 1) * s.prm.segPkts * s.prm.pktPix * s.prm.pixBytes
           else (cfgU s.cfg).toNat * (cfgV s.cfg).toNat * bytesPerPixel s.prm (cfgPixCode s.cfg))))

/-- R265: a READABLE JPEG buffer is delivered with the size that ends at its first end-of-image marker. -/
def Obligations.PollDeliversJpeg : Prop :=
  ∀ (s : State) (m : Nat), s.snap = .wait → (s.buf s.head).st = .readable →
    (s.buf s.head).bflags.getLsbD 0 = false → cfgPixFmt s.cfg = .jpeg →
    s.head.toNat < s.prm.nmax → (s.buf s.head).woff.toNat ≤ s.prm.cap →
    m + 1 < (s.buf s.head).woff.toNat → fbByte s s.head m = 0xFF#8 → fbByte s s.head (m + 1) = 0xD9#8 →
    (∀ k, k < m → ¬ (fbByte s s.head k = 0xFF#8 ∧ fbByte s s.head (k + 1) = 0xD9#8)) →
    exec .evPoll s =
      .next (frameDelivered { s with jpegSize := BitVec.ofNat 32 (m + 2) } (BitVec.ofNat 32 (m + 2)))

/-- R266: the two laws of `SUBFMT_SHIFT`, for every value the parameter may have elsewhere (log 6). -/
def Obligations.SubformatShiftLaws : Prop :=
  ∀ (code : BitVec 3) (sub : BitVec 8) (x y : BitVec 16) (transpose : Bool),
    (code = 1#3 ∨ code = 2#3 ∨ code = 5#3 → subfmtShift code sub x y transpose = sub) ∧
    (code = 3#3 ∨ code = 4#3 → x.toNat % 2 = 0 → y.toNat % 2 = 0 → transpose = false →
      subfmtShift code sub x y transpose = sub)

/-! ## The packet engine -/

/-- The input contract of the acted-on events (93_implementation_defined U6, U7, U8): a packet or a line of another length,
and a JPEG prefix that exceeds its line, are refused by name. The names and the place of the tests are the model's (logs
7, 8, 9). -/
def Obligations.ContractViolationsRefused : Prop :=
  ∀ s : State, s.active = true →
    (cfgEngine s.cfg = .serial → s.port.pay.length ≠ 4 + s.prm.pktPix * s.prm.pixBytes →
      exec .evPkt s = .refused .packetLength) ∧
    (cfgEngine s.cfg = .raster → s.inFrame = true → s.port.pay.length ≠ (cfgLineBytes s.cfg).toNat →
      ∀ mask, exec (.evLineRaster mask) s = .refused .lineLength ∧
        (s.reqEn = true → exec (.evLineJpeg mask) s = .refused .lineLength)) ∧
    (cfgEngine s.cfg = .raster → s.inFrame = true → s.reqEn = true →
      s.port.pay.length = (cfgLineBytes s.cfg).toNat → s.port.pay.length < 2 + jpegLen s.port.pay →
      ∀ mask, exec (.evLineJpeg mask) s = .refused .jpegPrefix)

/-- R301: an event that the table does not act on is ignored: nothing changes, no effect, no response. -/
def Obligations.EventsIgnored : Prop :=
  ∀ s : State,
    (cfgEngine s.cfg ≠ .serial ∨ s.active = false → exec .evPkt s = .next s) ∧
    (cfgEngine s.cfg ≠ .raster ∨ s.active = false → ∀ d, exec (.evSof d) s = .next s) ∧
    (cfgEngine s.cfg ≠ .raster ∨ s.active = false ∨ s.inFrame = false →
      ∀ mask, exec (.evLineRaster mask) s = .next s) ∧
    (cfgEngine s.cfg ≠ .raster ∨ s.active = false ∨ s.inFrame = false ∨ s.reqEn = false →
      ∀ mask, exec (.evLineJpeg mask) s = .next s) ∧
    (∀ ch : BitVec 8, cfgEngine s.cfg ≠ .raster ∨ s.prm.nch ≤ ch.toNat ∨ s.pending.getD ch.toNat none = none →
      exec (.evDmaDone ch) s = .next s) ∧
    (s.snap = .idle → exec .evPoll s = .next s)

/-- R221, R222, R223: a don't-care packet and a packet other than packet 0 while packet 0 is awaited change nothing; a
special packet of another segment while segment 0 is awaited only returns to awaiting packet 0. -/
def Obligations.PacketsDiscarded : Prop :=
  ∀ s : State, PacketActs s →
    (DontCarePacket s → exec .evPkt s = .next s) ∧
    (¬ DontCarePacket s → WaitingForPacketZero s → exec .evPkt s = .next s) ∧
    (¬ DontCarePacket s → ¬ WaitingForPacketZero s → WaitingForSegmentZero s →
      exec .evPkt s = .next { s with expPid := 0#12 })

/-- R224, R227: a packet that passes the hunt and fails any of the three conditions is a loss of sync: traced, and capture
aborted; the buffer being written is neither committed nor released. -/
def Obligations.InvalidPacketLosesSync : Prop :=
  ∀ s : State, PacketActs s → ¬ DontCarePacket s → ¬ WaitingForPacketZero s → ¬ WaitingForSegmentZero s →
    ¬ GoodPacket s → ∃ u, Aborted (s.traced .syncLost) u ∧ exec .evPkt s = .next u

/-- R163, R164, R225: a good packet that is not the last of its frame is placed at its offset, the buffer taken or
restarted if it is the first, and the counters advance; no other byte and no other buffer changes. -/
def Obligations.PacketPlaced : Prop :=
  encode .evPkt = 0x80000080#32 ∧
  ∀ s : State, PacketActs s → ¬ DontCarePacket s → GoodPacket s → ¬ AtFrameEnd s →
    s.tail.toNat < s.bufs.length → (AtFrameStart s → BufferAvailable s) →
    inStore s.prm s.tail (packetOffset s) (payloadOf s).length = true →
    ∃ m, StoredAt s.fb m (fbKey s.tail.toNat (packetOffset s)) (payloadOf s) ∧
      exec .evPkt s = .next
        { s with
          fb := m, bufs := s.bufs.set s.tail.toNat (placedBuf s),
          wrValid := (if AtFrameStart s then true else s.wrValid),
          expPid := (if s.expPid.toNat + 1 = s.prm.segPkts then 0#12 else s.expPid + 1#12),
          expSeg := (if s.expPid.toNat + 1 = s.prm.segPkts then s.expSeg + 1#3 else s.expSeg) }

/-- R163, R164, R134: the last good packet of a frame is placed and the buffer committed with the checked form: READABLE,
token cleared, `tail` advanced, callback called, counters at 0, capture still active. -/
def Obligations.PacketCompletesFrame : Prop :=
  ∀ s : State, PacketActs s → ¬ DontCarePacket s → GoodPacket s → AtFrameEnd s →
    s.tail.toNat < s.bufs.length → (AtFrameStart s → BufferAvailable s) →
    inStore s.prm s.tail (packetOffset s) (payloadOf s).length = true →
    ∃ m, StoredAt s.fb m (fbKey s.tail.toNat (packetOffset s)) (payloadOf s) ∧
      exec .evPkt s = .next
        (State.called
          { s with
            fb := m,
            bufs := s.bufs.set s.tail.toNat
              { placedBuf s with st := .readable, bflags := (placedBuf s).bflags ||| 4#3 },
            wrValid := false, tail := after s s.tail, expPid := 0#12, expSeg := 0#3 }
          (callbackOf s))

/-- R225, R226: the good first packet of a frame with no buffer for it, and a start of frame with none, are backpressure:
traced, and capture aborted. -/
def Obligations.NoBufferAborts : Prop :=
  ∀ s : State, s.tail.toNat < s.bufs.length → ¬ BufferAvailable s →
    (PacketActs s → ¬ DontCarePacket s → GoodPacket s → AtFrameStart s →
      ∃ u, Aborted (s.traced .noBuffer) u ∧ exec .evPkt s = .next u) ∧
    (cfgEngine s.cfg = .raster → s.active = true →
      ∀ d, ∃ u, Aborted (s.traced .noBuffer) u ∧ exec (.evSof d) s = .next u)

/-! ## The line engine -/

/-- R183, R196, R225, R229: a start of frame takes the FREE buffer at `tail`, or restarts the one left unfinished, clears
the line counter, calls the throttle and takes its verdict; in JPEG mode a dropped frame is skipped whole and any other
enables the streaming request. -/
def Obligations.SofStartsFrame : Prop :=
  encode (.evSof false) = 0x80000081#32 ∧ encode (.evSof true) = 0x80000181#32 ∧
  ∀ (s : State) (d : Bool), cfgEngine s.cfg = .raster → s.active = true → BufferAvailable s →
    exec (.evSof d) s = .next
      (State.called
        { s with
          bufs := s.bufs.set s.tail.toNat ⟨.writing, 0#32, 0#3⟩, wrValid := true,
          line := 0#32, drop := d,
          inFrame := !(decide (cfgPixFmt s.cfg = .jpeg) && d),
          reqEn := (decide (cfgPixFmt s.cfg = .jpeg) && !d) || s.reqEn }
        (if cfgPixFmt s.cfg = .jpeg ∧ d = false then [.throttle, .reqEnable] else [.throttle]))

/-- R184, R185: a line outside the crop window only advances the line counter. -/
def Obligations.LineOutsideWindow : Prop :=
  (∀ mask, encode (.evLineRaster mask) = 0x80000082#32 ||| (mask.setWidth 32 <<< 16)) ∧
  ∀ (s : State) (mask : BitVec 8), LineActs s → ¬ LineInWindow s →
    exec (.evLineRaster mask) s = .next { s with line := s.line + 1#32 }

/-- R184, R185, R188, R189: without DMA the visible window of an in-window line is written to its row, and to no other
byte, and the line is counted, at `cfg.v` lines ending and committing the frame. -/
def Obligations.LineCopied : Prop :=
  ∀ (s : State) (mask : BitVec 8), LineActs s → LineInWindow s → s.drop = false → s.dmaEn = false →
    s.tail.toNat < s.bufs.length → inStore s.prm s.tail (rowStart s) (visibleBytes s).length = true →
    ∃ m t, StoredAt s.fb m (fbKey s.tail.toNat (rowStart s)) (visibleBytes s) ∧
      LineCounted { s with fb := m, line := s.line + 1#32 } t ∧ exec (.evLineRaster mask) s = .next t

/-- R186, R189: an in-window line of a dropped frame is counted and nothing is copied or submitted; at `cfg.v` lines the
frame ends without a commit. -/
def Obligations.DroppedLineCounted : Prop :=
  ∀ (s : State) (mask : BitVec 8), LineActs s → LineInWindow s → s.drop = true → s.tail.toNat < s.bufs.length →
    ∃ t, LineCounted { s with line := s.line + 1#32 } t ∧ exec (.evLineRaster mask) s = .next t

/-- R187, R189: with DMA, the line is submitted to the handle `rr` until the first attempt `k` not answered busy; what was
pending there lands first, the line's bytes become the handle's pending record, and the handle is triggered. -/
def Obligations.LineSubmitted : Prop :=
  ∀ (s : State) (mask : BitVec 8) (k : Nat), LineActs s → LineInWindow s → s.drop = false → s.dmaEn = true →
    s.tail.toNat < s.bufs.length → s.rr.toNat < s.pending.length →
    (∀ old, s.pending.getD s.rr.toNat none = some old → inStore s.prm old.buf old.off old.bytes.length = true) →
    k < s.prm.dmaRetry → mask.getLsbD k = false → (∀ j, j < k → mask.getLsbD j = true) →
    ∃ m t,
      (s.pending.getD s.rr.toNat none = none → m = s.fb) ∧
      (∀ old, s.pending.getD s.rr.toNat none = some old →
        StoredAt s.fb m (fbKey old.buf.toNat old.off) old.bytes) ∧
      LineCounted
        (State.called
          { s with
            fb := m, line := s.line + 1#32, rr := BitVec.ofNat 8 ((s.rr.toNat + 1) % s.prm.nch),
            pending := s.pending.set s.rr.toNat (some ⟨s.tail, rowStart s, visibleBytes s⟩) }
          (List.replicate (k + 1)
              (.dmaSubmit s.rr.toNat s.srcOff s.srcBurst s.tail (rowStart s) s.dstBurst s.dstStride) ++
            [.dmaTrigger s.rr.toNat])) t ∧
      exec (.evLineRaster mask) s = .next t

/-- R187, R297: with DMA and every attempt answered busy, the frame is marked dropped and traced; nothing is recorded or
written, and the line is counted. -/
def Obligations.LineSubmissionExhausted : Prop :=
  ∀ (s : State) (mask : BitVec 8), LineActs s → LineInWindow s → s.drop = false → s.dmaEn = true →
    s.tail.toNat < s.bufs.length → (∀ j, j < s.prm.dmaRetry → mask.getLsbD j = true) →
    ∃ t, LineCounted
        (State.traced
          (State.called
            { s with
              line := s.line + 1#32, rr := BitVec.ofNat 8 ((s.rr.toNat + 1) % s.prm.nch), drop := true }
            (List.replicate s.prm.dmaRetry
              (.dmaSubmit s.rr.toNat s.srcOff s.srcBurst s.tail (rowStart s) s.dstBurst s.dstStride)))
          .droppedFrame) t ∧
      exec (.evLineRaster mask) s = .next t

/-- R190, R191, R193: a JPEG line that fits is appended at the running offset, and no other byte changes; with no
end-of-image marker in the scanned window the frame goes on, with one it ends: committed, request disabled. -/
def Obligations.JpegLineAppended : Prop :=
  (∀ mask, encode (.evLineJpeg mask) = 0x80000082#32 ||| (mask.setWidth 32 <<< 16)) ∧
  ∀ (s : State) (mask : BitVec 8), JpegLineActs s →
    (s.buf s.tail).woff.toNat + jpegLen s.port.pay ≤ s.prm.cap → s.tail.toNat < s.prm.nmax →
    s.tail.toNat < s.bufs.length →
    let old := (s.buf s.tail).woff.toNat
    let b : Buf := { s.buf s.tail with woff := BitVec.ofNat 32 (old + jpegLen s.port.pay) }
    ∃ m, StoredAt s.fb m (fbKey s.tail.toNat old) ((s.port.pay.drop 2).take (jpegLen s.port.pay)) ∧
      (¬ MarkerFound { s with fb := m } old (old + jpegLen s.port.pay) →
        exec (.evLineJpeg mask) s = .next
          { s with fb := m, line := s.line + 1#32, bufs := s.bufs.set s.tail.toNat b }) ∧
      (MarkerFound { s with fb := m } old (old + jpegLen s.port.pay) →
        exec (.evLineJpeg mask) s = .next
          (State.called
            { s with
              fb := m, line := s.line + 1#32,
              bufs := s.bufs.set s.tail.toNat { b with st := .readable, bflags := b.bflags ||| 4#3 },
              inFrame := false, reqEn := false, wrValid := false, tail := after s s.tail }
            (callbackOf s ++ [.reqDisable])))

/-- R192: a JPEG line that does not fit is not appended: the buffer is flagged OVERFLOW and the frame ends, committed,
request disabled. -/
def Obligations.JpegLineOverflows : Prop :=
  ∀ (s : State) (mask : BitVec 8), JpegLineActs s →
    s.prm.cap < (s.buf s.tail).woff.toNat + jpegLen s.port.pay → s.tail.toNat < s.bufs.length →
    exec (.evLineJpeg mask) s = .next
      (State.called
        { s with
          line := s.line + 1#32,
          bufs := s.bufs.set s.tail.toNat
            { s.buf s.tail with st := .readable, bflags := (s.buf s.tail).bflags ||| 5#3 },
          inFrame := false, reqEn := false, wrValid := false, tail := after s s.tail }
        (callbackOf s ++ [.reqDisable]))

/-- R194: the completion of a pending transfer writes the record's bytes to the record's place, whatever the state of that
buffer, and clears the record; nothing else changes. -/
def Obligations.DmaDoneLands : Prop :=
  (∀ ch, encode (.evDmaDone ch) = 0x80000083#32 ||| (ch.setWidth 32 <<< 8)) ∧
  ∀ (s : State) (ch : BitVec 8) (t : Transfer), cfgEngine s.cfg = .raster → ch.toNat < s.prm.nch →
    s.pending.getD ch.toNat none = some t → inStore s.prm t.buf t.off t.bytes.length = true →
    ∃ m, StoredAt s.fb m (fbKey t.buf.toNat t.off) t.bytes ∧
      exec (.evDmaDone ch) s = .next { s with fb := m, pending := s.pending.set ch.toNat none }

/-- R181, R182: on the raster engine with a raster format, the stride is `u * bpp`, the offset `x * bpp`, DMA is enabled
from the minimum stride on, and the burst widths are the largest of 1, 2, 4, 8, 32 that divide the destination stride, and of those that
divide the destination burst the largest that divides the source offset; 16 is never chosen. For strides and offsets of
32 bits (log 26). In JPEG mode and with any other engine the five registers are 0, 0, 1, 1, 0. Nothing else changes. -/
def Obligations.BurstLaws : Prop :=
  (∀ s : State, cfgEngine s.cfg = .raster → cfgPixFmt s.cfg ∈ [.grayscale, .rgb, .yuv, .bayer] →
    let stride := (cfgU s.cfg).toNat * bytesPerPixel s.prm (cfgPixCode s.cfg)
    let off := (cfgX s.cfg).toNat * bytesPerPixel s.prm (cfgPixCode s.cfg)
    stride < 2 ^ 32 → off < 2 ^ 32 →
    let d := deriveBurst s
    d = { s with
      dstStride := d.dstStride, srcOff := d.srcOff, dstBurst := d.dstBurst, srcBurst := d.srcBurst, dmaEn := d.dmaEn } ∧
    d.dstStride.toNat = stride ∧ d.srcOff.toNat = off ∧ d.dmaEn = decide (s.prm.minDmaStride ≤ stride) ∧
    d.dstBurst.toNat ∈ [1, 2, 4, 8, 32] ∧ d.dstBurst.toNat ∣ stride ∧
    (∀ b, b ∈ [1, 2, 4, 8, 32] → b ∣ stride → b ≤ d.dstBurst.toNat) ∧
    d.srcBurst.toNat ∈ [1, 2, 4, 8, 32] ∧ d.srcBurst.toNat ∣ d.dstBurst.toNat ∧ d.srcBurst.toNat ∣ off ∧
    (∀ b, b ∈ [1, 2, 4, 8, 32] → b ∣ d.dstBurst.toNat → b ∣ off → b ≤ d.srcBurst.toNat) ∧
    d.srcBurst.toNat ≤ d.dstBurst.toNat ∧
    (16 ∣ stride → ¬ 32 ∣ stride → d.dstBurst.toNat = 8)) ∧
  ∀ s : State, cfgEngine s.cfg ≠ .raster ∨ cfgPixFmt s.cfg ∉ [.grayscale, .rgb, .yuv, .bayer] →
    deriveBurst s =
      { s with dstStride := 0#32, srcOff := 0#32, dstBurst := 1#6, srcBurst := 1#6, dmaEn := false }

/-! ## What every step keeps -/

/-- R312: the four interrupt events write no configuration register, no burst register, no snapshot register, neither `head`
nor `jpeg_size`, no response and no frame descriptor word, and no entry of the descriptor file but the one at `tail`.
`active`, `resync_pending` and the engines' counters, which the events and the aborts inside them write (R226), are not
among these. -/
def Obligations.InterruptEventsStayInProducer : Prop :=
  ∀ (s t : State) (i : Instr), i.opcode ∈ [.evPkt, .evSof, .evLine, .evDmaDone] → exec i s = .next t →
    t.head = s.head ∧ t.cfg = s.cfg ∧ t.multi = s.multi ∧ t.initialised = s.initialised ∧
    t.dstStride = s.dstStride ∧ t.srcOff = s.srcOff ∧ t.dstBurst = s.dstBurst ∧ t.srcBurst = s.srcBurst ∧
    t.dmaEn = s.dmaEn ∧ t.snap = s.snap ∧ t.tRs = s.tRs ∧ t.tStart = s.tStart ∧ t.timeout = s.timeout ∧
    t.nonblock = s.nonblock ∧ t.jpegSize = s.jpegSize ∧ t.prm = s.prm ∧ t.out.rsp = s.out.rsp ∧
    t.out.desc = s.out.desc ∧ ∀ j, j ≠ s.tail → t.buf j = s.buf j

/-- R30, R228, R338: capture becomes active only by a snapshot that finds no serial resync pending, or by a poll in DELAY at
least `T_RESYNC` milliseconds after the delay began. -/
def Obligations.CaptureStartsAfterDelay : Prop :=
  ∀ (s t : State) (i : Instr), exec i s = .next t → s.active = false → t.active = true →
    (∃ flags, i = .snapshot flags ∧ ThreadReady s ∧ ¬ (cfgEngine s.cfg = .serial ∧ s.resyncPending = true)) ∨
    (i = .evPoll ∧ s.snap = .delay ∧ s.prm.resync ≤ (s.port.now - s.tRs).toNat)

/-- R231: a packet makes a buffer READABLE only when it is the good last packet of a frame, and then only the buffer at
`tail`. -/
def Obligations.NoPartialCommit : Prop :=
  ∀ (s t : State) (j : BitVec 8), exec .evPkt s = .next t → (s.buf j).st ≠ .readable → (t.buf j).st = .readable →
    PacketActs s ∧ ¬ DontCarePacket s ∧ GoodPacket s ∧ AtFrameEnd s ∧ j = s.tail

/-- R270: until `SNAPSHOT`, `FREE_CURRENT`, `SETUP_BUFFERS`, `INIT` or `DEINIT`, a HELD buffer keeps its descriptor, and its
bytes unless a transfer into it is still pending. -/
def Obligations.HeldBufferKept : Prop :=
  ∀ (s t : State) (i : Instr) (j : BitVec 8), Inv s → s.initialised = true → exec i s = .next t →
    i.opcode ∉ [.snapshot, .freeCurrent, .setupBuffers, .init, .deinit] →
    j.toNat < (cfgNBuffers s.cfg).toNat → (s.buf j).st = .held →
    t.buf j = s.buf j ∧
    ((∀ r, some r ∈ s.pending → r.buf ≠ j) → ∀ k, k < s.prm.cap → fbByte t j k = fbByte s j k)

/-- The invariant of the model (`Inv` in Sys2Proof/Safety.lean) holds at power-on reset. -/
def Obligations.ResetInv : Prop := Inv State.reset

/-- Every step keeps the invariant: sizes, session flags, quiet engines while inactive, the ring shape, the engine's hold
on the buffer at `tail`, the bounds of every access, and the canonical form of the store. -/
def Obligations.StepKeepsInv : Prop :=
  ∀ s t : State, Inv s → step s = .next t → Inv t

/-- R60, R144: under the invariant no step accesses a byte outside the store. The fault that would say so is the model's
(log 14). -/
def Obligations.NoAccessOutsideStore : Prop :=
  ∀ s : State, Inv s → step s ≠ .fault .outsideStore

/-- R140, R141: in every reachable state of an initialised block the ring has its shape, and at most one buffer is
WRITING. -/
def Obligations.ReachableRing : Prop :=
  ∀ s : State, Reachable s → s.initialised = true →
    RingShape s ∧
    ∀ i j : BitVec 8, i.toNat < (cfgNBuffers s.cfg).toNat → j.toNat < (cfgNBuffers s.cfg).toNat →
      (s.buf i).st = .writing → (s.buf j).st = .writing → i = j

/-- R167: from an active serial session at a frame start with a FREE buffer at `tail`, the packets of a frame, none of them
matching the don't-care pattern, leave the image in that buffer bit for bit, every other buffer's bytes as they were, and
the buffer committed once. The packets carry any check words (with `crc_en` every check passes), and any bits that R103
and R162 say are not examined: bit 15, and the segment bits of a packet that does not carry the segment id. -/
def Obligations.RoundTrip : Prop :=
  ∀ (s : State) (now : Word) (ids crcs : Nat → BitVec 16) (image : List Byte) (rest : List Input),
    s.prm.valid = true → cfgEngine s.cfg = .serial → s.active = true → AtFrameStart s →
    s.tail.toNat < s.bufs.length → s.tail.toNat < s.prm.nmax → (s.buf s.tail).st = .free →
    image.length = segCount s.multi * s.prm.segPkts * (s.prm.pktPix * s.prm.pixBytes) → image.length ≤ s.prm.cap →
    tickOk s.lastNow now = true →
    (∀ k, k < segCount s.multi * s.prm.segPkts →
      (ids k).toNat % 2 ^ 12 = k % s.prm.segPkts ∧ ids k &&& s.prm.dcMask ≠ s.prm.dcMatch ∧
      (s.multi = true → k % s.prm.segPkts = s.prm.specialPid → (ids k).toNat / 2 ^ 12 % 2 ^ 3 = k / s.prm.segPkts)) →
    (cfgCrcEn s.cfg = false ∨
      ∀ x, x ∈ frameInputs s.prm s.multi now ids crcs image → Config.check x.pay = true) →
    s.inputs = frameInputs s.prm s.multi now ids crcs image ++ rest →
    ∃ t, Sys2Proof.core.run (segCount s.multi * s.prm.segPkts) s = .next t ∧
      (∀ k (h : k < image.length), fbByte t s.tail k = image[k]) ∧
      (∀ (j : BitVec 8) (k : Nat), j ≠ s.tail → k < s.prm.cap → fbByte t j k = fbByte s j k) ∧
      t.bufs = s.bufs.set s.tail.toNat ⟨.readable, BitVec.ofNat 32 image.length, 4#3⟩ ∧
      t.tail = after s s.tail ∧ t.head = s.head ∧ t.active = true ∧ AtFrameStart t ∧ t.wrValid = false ∧
      t.inputs = rest
end

