-- ==== Sys2Proof/Laws/State.lean ====
section
/-! SUPPORT. One lemma per field per basic update of the state, each true by rfl, so that no later proof unfolds a record
update. -/

namespace Sys2Proof.Machine

/-! `emit`. -/

@[simp] theorem emit_prm (e : Effect) (s : State) : (emit e s).prm = s.prm := rfl
@[simp] theorem emit_initialised (e : Effect) (s : State) : (emit e s).initialised = s.initialised := rfl
@[simp] theorem emit_cfg (e : Effect) (s : State) : (emit e s).cfg = s.cfg := rfl
@[simp] theorem emit_bufs (e : Effect) (s : State) : (emit e s).bufs = s.bufs := rfl
@[simp] theorem emit_fb (e : Effect) (s : State) : (emit e s).fb = s.fb := rfl
@[simp] theorem emit_head (e : Effect) (s : State) : (emit e s).head = s.head := rfl
@[simp] theorem emit_tail (e : Effect) (s : State) : (emit e s).tail = s.tail := rfl
@[simp] theorem emit_wrValid (e : Effect) (s : State) : (emit e s).wrValid = s.wrValid := rfl
@[simp] theorem emit_jpegSize (e : Effect) (s : State) : (emit e s).jpegSize = s.jpegSize := rfl
@[simp] theorem emit_active (e : Effect) (s : State) : (emit e s).active = s.active := rfl
@[simp] theorem emit_resyncPending (e : Effect) (s : State) : (emit e s).resyncPending = s.resyncPending := rfl
@[simp] theorem emit_expPid (e : Effect) (s : State) : (emit e s).expPid = s.expPid := rfl
@[simp] theorem emit_expSeg (e : Effect) (s : State) : (emit e s).expSeg = s.expSeg := rfl
@[simp] theorem emit_multi (e : Effect) (s : State) : (emit e s).multi = s.multi := rfl
@[simp] theorem emit_drop (e : Effect) (s : State) : (emit e s).drop = s.drop := rfl
@[simp] theorem emit_line (e : Effect) (s : State) : (emit e s).line = s.line := rfl
@[simp] theorem emit_inFrame (e : Effect) (s : State) : (emit e s).inFrame = s.inFrame := rfl
@[simp] theorem emit_reqEn (e : Effect) (s : State) : (emit e s).reqEn = s.reqEn := rfl
@[simp] theorem emit_dstStride (e : Effect) (s : State) : (emit e s).dstStride = s.dstStride := rfl
@[simp] theorem emit_srcOff (e : Effect) (s : State) : (emit e s).srcOff = s.srcOff := rfl
@[simp] theorem emit_dstBurst (e : Effect) (s : State) : (emit e s).dstBurst = s.dstBurst := rfl
@[simp] theorem emit_srcBurst (e : Effect) (s : State) : (emit e s).srcBurst = s.srcBurst := rfl
@[simp] theorem emit_dmaEn (e : Effect) (s : State) : (emit e s).dmaEn = s.dmaEn := rfl
@[simp] theorem emit_rr (e : Effect) (s : State) : (emit e s).rr = s.rr := rfl
@[simp] theorem emit_pending (e : Effect) (s : State) : (emit e s).pending = s.pending := rfl
@[simp] theorem emit_snap (e : Effect) (s : State) : (emit e s).snap = s.snap := rfl
@[simp] theorem emit_tRs (e : Effect) (s : State) : (emit e s).tRs = s.tRs := rfl
@[simp] theorem emit_tStart (e : Effect) (s : State) : (emit e s).tStart = s.tStart := rfl
@[simp] theorem emit_timeout (e : Effect) (s : State) : (emit e s).timeout = s.timeout := rfl
@[simp] theorem emit_nonblock (e : Effect) (s : State) : (emit e s).nonblock = s.nonblock := rfl
@[simp] theorem emit_port (e : Effect) (s : State) : (emit e s).port = s.port := rfl
@[simp] theorem emit_inputs (e : Effect) (s : State) : (emit e s).inputs = s.inputs := rfl
@[simp] theorem emit_lastNow (e : Effect) (s : State) : (emit e s).lastNow = s.lastNow := rfl
@[simp] theorem emit_draws (e : Effect) (s : State) : (emit e s).draws = s.draws := rfl
@[simp] theorem emit_out (e : Effect) (s : State) : (emit e s).out = { s.out with eff := s.out.eff ++ [e] } := rfl
@[simp] theorem emit_buf (e : Effect) (s : State) (j : BitVec 8) : (emit e s).buf j = s.buf j := rfl
@[simp] theorem emit_nBufs (e : Effect) (s : State) : (emit e s).nBufs = s.nBufs := rfl

/-! `emitAll`. -/

@[simp] theorem emitAll_prm (es : List Effect) (s : State) : (emitAll es s).prm = s.prm := rfl
@[simp] theorem emitAll_initialised (es : List Effect) (s : State) : (emitAll es s).initialised = s.initialised := rfl
@[simp] theorem emitAll_cfg (es : List Effect) (s : State) : (emitAll es s).cfg = s.cfg := rfl
@[simp] theorem emitAll_bufs (es : List Effect) (s : State) : (emitAll es s).bufs = s.bufs := rfl
@[simp] theorem emitAll_fb (es : List Effect) (s : State) : (emitAll es s).fb = s.fb := rfl
@[simp] theorem emitAll_head (es : List Effect) (s : State) : (emitAll es s).head = s.head := rfl
@[simp] theorem emitAll_tail (es : List Effect) (s : State) : (emitAll es s).tail = s.tail := rfl
@[simp] theorem emitAll_wrValid (es : List Effect) (s : State) : (emitAll es s).wrValid = s.wrValid := rfl
@[simp] theorem emitAll_jpegSize (es : List Effect) (s : State) : (emitAll es s).jpegSize = s.jpegSize := rfl
@[simp] theorem emitAll_active (es : List Effect) (s : State) : (emitAll es s).active = s.active := rfl
@[simp] theorem emitAll_resyncPending (es : List Effect) (s : State) : (emitAll es s).resyncPending = s.resyncPending := rfl
@[simp] theorem emitAll_expPid (es : List Effect) (s : State) : (emitAll es s).expPid = s.expPid := rfl
@[simp] theorem emitAll_expSeg (es : List Effect) (s : State) : (emitAll es s).expSeg = s.expSeg := rfl
@[simp] theorem emitAll_multi (es : List Effect) (s : State) : (emitAll es s).multi = s.multi := rfl
@[simp] theorem emitAll_drop (es : List Effect) (s : State) : (emitAll es s).drop = s.drop := rfl
@[simp] theorem emitAll_line (es : List Effect) (s : State) : (emitAll es s).line = s.line := rfl
@[simp] theorem emitAll_inFrame (es : List Effect) (s : State) : (emitAll es s).inFrame = s.inFrame := rfl
@[simp] theorem emitAll_reqEn (es : List Effect) (s : State) : (emitAll es s).reqEn = s.reqEn := rfl
@[simp] theorem emitAll_dstStride (es : List Effect) (s : State) : (emitAll es s).dstStride = s.dstStride := rfl
@[simp] theorem emitAll_srcOff (es : List Effect) (s : State) : (emitAll es s).srcOff = s.srcOff := rfl
@[simp] theorem emitAll_dstBurst (es : List Effect) (s : State) : (emitAll es s).dstBurst = s.dstBurst := rfl
@[simp] theorem emitAll_srcBurst (es : List Effect) (s : State) : (emitAll es s).srcBurst = s.srcBurst := rfl
@[simp] theorem emitAll_dmaEn (es : List Effect) (s : State) : (emitAll es s).dmaEn = s.dmaEn := rfl
@[simp] theorem emitAll_rr (es : List Effect) (s : State) : (emitAll es s).rr = s.rr := rfl
@[simp] theorem emitAll_pending (es : List Effect) (s : State) : (emitAll es s).pending = s.pending := rfl
@[simp] theorem emitAll_snap (es : List Effect) (s : State) : (emitAll es s).snap = s.snap := rfl
@[simp] theorem emitAll_tRs (es : List Effect) (s : State) : (emitAll es s).tRs = s.tRs := rfl
@[simp] theorem emitAll_tStart (es : List Effect) (s : State) : (emitAll es s).tStart = s.tStart := rfl
@[simp] theorem emitAll_timeout (es : List Effect) (s : State) : (emitAll es s).timeout = s.timeout := rfl
@[simp] theorem emitAll_nonblock (es : List Effect) (s : State) : (emitAll es s).nonblock = s.nonblock := rfl
@[simp] theorem emitAll_port (es : List Effect) (s : State) : (emitAll es s).port = s.port := rfl
@[simp] theorem emitAll_inputs (es : List Effect) (s : State) : (emitAll es s).inputs = s.inputs := rfl
@[simp] theorem emitAll_lastNow (es : List Effect) (s : State) : (emitAll es s).lastNow = s.lastNow := rfl
@[simp] theorem emitAll_draws (es : List Effect) (s : State) : (emitAll es s).draws = s.draws := rfl
@[simp] theorem emitAll_out (es : List Effect) (s : State) : (emitAll es s).out = { s.out with eff := s.out.eff ++ es } := rfl
@[simp] theorem emitAll_buf (es : List Effect) (s : State) (j : BitVec 8) : (emitAll es s).buf j = s.buf j := rfl
@[simp] theorem emitAll_nBufs (es : List Effect) (s : State) : (emitAll es s).nBufs = s.nBufs := rfl

/-! `traceLabel`. -/

@[simp] theorem traceLabel_prm (t : Trace) (s : State) : (traceLabel t s).prm = s.prm := rfl
@[simp] theorem traceLabel_initialised (t : Trace) (s : State) : (traceLabel t s).initialised = s.initialised := rfl
@[simp] theorem traceLabel_cfg (t : Trace) (s : State) : (traceLabel t s).cfg = s.cfg := rfl
@[simp] theorem traceLabel_bufs (t : Trace) (s : State) : (traceLabel t s).bufs = s.bufs := rfl
@[simp] theorem traceLabel_fb (t : Trace) (s : State) : (traceLabel t s).fb = s.fb := rfl
@[simp] theorem traceLabel_head (t : Trace) (s : State) : (traceLabel t s).head = s.head := rfl
@[simp] theorem traceLabel_tail (t : Trace) (s : State) : (traceLabel t s).tail = s.tail := rfl
@[simp] theorem traceLabel_wrValid (t : Trace) (s : State) : (traceLabel t s).wrValid = s.wrValid := rfl
@[simp] theorem traceLabel_jpegSize (t : Trace) (s : State) : (traceLabel t s).jpegSize = s.jpegSize := rfl
@[simp] theorem traceLabel_active (t : Trace) (s : State) : (traceLabel t s).active = s.active := rfl
@[simp] theorem traceLabel_resyncPending (t : Trace) (s : State) : (traceLabel t s).resyncPending = s.resyncPending := rfl
@[simp] theorem traceLabel_expPid (t : Trace) (s : State) : (traceLabel t s).expPid = s.expPid := rfl
@[simp] theorem traceLabel_expSeg (t : Trace) (s : State) : (traceLabel t s).expSeg = s.expSeg := rfl
@[simp] theorem traceLabel_multi (t : Trace) (s : State) : (traceLabel t s).multi = s.multi := rfl
@[simp] theorem traceLabel_drop (t : Trace) (s : State) : (traceLabel t s).drop = s.drop := rfl
@[simp] theorem traceLabel_line (t : Trace) (s : State) : (traceLabel t s).line = s.line := rfl
@[simp] theorem traceLabel_inFrame (t : Trace) (s : State) : (traceLabel t s).inFrame = s.inFrame := rfl
@[simp] theorem traceLabel_reqEn (t : Trace) (s : State) : (traceLabel t s).reqEn = s.reqEn := rfl
@[simp] theorem traceLabel_dstStride (t : Trace) (s : State) : (traceLabel t s).dstStride = s.dstStride := rfl
@[simp] theorem traceLabel_srcOff (t : Trace) (s : State) : (traceLabel t s).srcOff = s.srcOff := rfl
@[simp] theorem traceLabel_dstBurst (t : Trace) (s : State) : (traceLabel t s).dstBurst = s.dstBurst := rfl
@[simp] theorem traceLabel_srcBurst (t : Trace) (s : State) : (traceLabel t s).srcBurst = s.srcBurst := rfl
@[simp] theorem traceLabel_dmaEn (t : Trace) (s : State) : (traceLabel t s).dmaEn = s.dmaEn := rfl
@[simp] theorem traceLabel_rr (t : Trace) (s : State) : (traceLabel t s).rr = s.rr := rfl
@[simp] theorem traceLabel_pending (t : Trace) (s : State) : (traceLabel t s).pending = s.pending := rfl
@[simp] theorem traceLabel_snap (t : Trace) (s : State) : (traceLabel t s).snap = s.snap := rfl
@[simp] theorem traceLabel_tRs (t : Trace) (s : State) : (traceLabel t s).tRs = s.tRs := rfl
@[simp] theorem traceLabel_tStart (t : Trace) (s : State) : (traceLabel t s).tStart = s.tStart := rfl
@[simp] theorem traceLabel_timeout (t : Trace) (s : State) : (traceLabel t s).timeout = s.timeout := rfl
@[simp] theorem traceLabel_nonblock (t : Trace) (s : State) : (traceLabel t s).nonblock = s.nonblock := rfl
@[simp] theorem traceLabel_port (t : Trace) (s : State) : (traceLabel t s).port = s.port := rfl
@[simp] theorem traceLabel_inputs (t : Trace) (s : State) : (traceLabel t s).inputs = s.inputs := rfl
@[simp] theorem traceLabel_lastNow (t : Trace) (s : State) : (traceLabel t s).lastNow = s.lastNow := rfl
@[simp] theorem traceLabel_draws (t : Trace) (s : State) : (traceLabel t s).draws = s.draws := rfl
@[simp] theorem traceLabel_out (t : Trace) (s : State) : (traceLabel t s).out = { s.out with tr := s.out.tr ++ [t] } := rfl
@[simp] theorem traceLabel_buf (t : Trace) (s : State) (j : BitVec 8) : (traceLabel t s).buf j = s.buf j := rfl
@[simp] theorem traceLabel_nBufs (t : Trace) (s : State) : (traceLabel t s).nBufs = s.nBufs := rfl

/-! `respond`. -/

@[simp] theorem respond_prm (st : Status) (i : Option (BitVec 8)) (b : Bool) (s : State) : (respond st i b s).prm = s.prm := rfl
@[simp] theorem respond_initialised (st : Status) (i : Option (BitVec 8)) (b : Bool) (s : State) : (respond st i b s).initialised = s.initialised := rfl
@[simp] theorem respond_cfg (st : Status) (i : Option (BitVec 8)) (b : Bool) (s : State) : (respond st i b s).cfg = s.cfg := rfl
@[simp] theorem respond_bufs (st : Status) (i : Option (BitVec 8)) (b : Bool) (s : State) : (respond st i b s).bufs = s.bufs := rfl
@[simp] theorem respond_fb (st : Status) (i : Option (BitVec 8)) (b : Bool) (s : State) : (respond st i b s).fb = s.fb := rfl
@[simp] theorem respond_head (st : Status) (i : Option (BitVec 8)) (b : Bool) (s : State) : (respond st i b s).head = s.head := rfl
@[simp] theorem respond_tail (st : Status) (i : Option (BitVec 8)) (b : Bool) (s : State) : (respond st i b s).tail = s.tail := rfl
@[simp] theorem respond_wrValid (st : Status) (i : Option (BitVec 8)) (b : Bool) (s : State) : (respond st i b s).wrValid = s.wrValid := rfl
@[simp] theorem respond_jpegSize (st : Status) (i : Option (BitVec 8)) (b : Bool) (s : State) : (respond st i b s).jpegSize = s.jpegSize := rfl
@[simp] theorem respond_active (st : Status) (i : Option (BitVec 8)) (b : Bool) (s : State) : (respond st i b s).active = s.active := rfl
@[simp] theorem respond_resyncPending (st : Status) (i : Option (BitVec 8)) (b : Bool) (s : State) : (respond st i b s).resyncPending = s.resyncPending := rfl
@[simp] theorem respond_expPid (st : Status) (i : Option (BitVec 8)) (b : Bool) (s : State) : (respond st i b s).expPid = s.expPid := rfl
@[simp] theorem respond_expSeg (st : Status) (i : Option (BitVec 8)) (b : Bool) (s : State) : (respond st i b s).expSeg = s.expSeg := rfl
@[simp] theorem respond_multi (st : Status) (i : Option (BitVec 8)) (b : Bool) (s : State) : (respond st i b s).multi = s.multi := rfl
@[simp] theorem respond_drop (st : Status) (i : Option (BitVec 8)) (b : Bool) (s : State) : (respond st i b s).drop = s.drop := rfl
@[simp] theorem respond_line (st : Status) (i : Option (BitVec 8)) (b : Bool) (s : State) : (respond st i b s).line = s.line := rfl
@[simp] theorem respond_inFrame (st : Status) (i : Option (BitVec 8)) (b : Bool) (s : State) : (respond st i b s).inFrame = s.inFrame := rfl
@[simp] theorem respond_reqEn (st : Status) (i : Option (BitVec 8)) (b : Bool) (s : State) : (respond st i b s).reqEn = s.reqEn := rfl
@[simp] theorem respond_dstStride (st : Status) (i : Option (BitVec 8)) (b : Bool) (s : State) : (respond st i b s).dstStride = s.dstStride := rfl
@[simp] theorem respond_srcOff (st : Status) (i : Option (BitVec 8)) (b : Bool) (s : State) : (respond st i b s).srcOff = s.srcOff := rfl
@[simp] theorem respond_dstBurst (st : Status) (i : Option (BitVec 8)) (b : Bool) (s : State) : (respond st i b s).dstBurst = s.dstBurst := rfl
@[simp] theorem respond_srcBurst (st : Status) (i : Option (BitVec 8)) (b : Bool) (s : State) : (respond st i b s).srcBurst = s.srcBurst := rfl
@[simp] theorem respond_dmaEn (st : Status) (i : Option (BitVec 8)) (b : Bool) (s : State) : (respond st i b s).dmaEn = s.dmaEn := rfl
@[simp] theorem respond_rr (st : Status) (i : Option (BitVec 8)) (b : Bool) (s : State) : (respond st i b s).rr = s.rr := rfl
@[simp] theorem respond_pending (st : Status) (i : Option (BitVec 8)) (b : Bool) (s : State) : (respond st i b s).pending = s.pending := rfl
@[simp] theorem respond_snap (st : Status) (i : Option (BitVec 8)) (b : Bool) (s : State) : (respond st i b s).snap = s.snap := rfl
@[simp] theorem respond_tRs (st : Status) (i : Option (BitVec 8)) (b : Bool) (s : State) : (respond st i b s).tRs = s.tRs := rfl
@[simp] theorem respond_tStart (st : Status) (i : Option (BitVec 8)) (b : Bool) (s : State) : (respond st i b s).tStart = s.tStart := rfl
@[simp] theorem respond_timeout (st : Status) (i : Option (BitVec 8)) (b : Bool) (s : State) : (respond st i b s).timeout = s.timeout := rfl
@[simp] theorem respond_nonblock (st : Status) (i : Option (BitVec 8)) (b : Bool) (s : State) : (respond st i b s).nonblock = s.nonblock := rfl
@[simp] theorem respond_port (st : Status) (i : Option (BitVec 8)) (b : Bool) (s : State) : (respond st i b s).port = s.port := rfl
@[simp] theorem respond_inputs (st : Status) (i : Option (BitVec 8)) (b : Bool) (s : State) : (respond st i b s).inputs = s.inputs := rfl
@[simp] theorem respond_lastNow (st : Status) (i : Option (BitVec 8)) (b : Bool) (s : State) : (respond st i b s).lastNow = s.lastNow := rfl
@[simp] theorem respond_draws (st : Status) (i : Option (BitVec 8)) (b : Bool) (s : State) : (respond st i b s).draws = s.draws := rfl
@[simp] theorem respond_out (st : Status) (i : Option (BitVec 8)) (b : Bool) (s : State) : (respond st i b s).out = { s.out with rsp := some (responseOf s st i b) } := rfl
@[simp] theorem respond_buf (st : Status) (i : Option (BitVec 8)) (b : Bool) (s : State) (j : BitVec 8) : (respond st i b s).buf j = s.buf j := rfl
@[simp] theorem respond_nBufs (st : Status) (i : Option (BitVec 8)) (b : Bool) (s : State) : (respond st i b s).nBufs = s.nBufs := rfl

/-! `reject`. -/

@[simp] theorem reject_prm (st : Status) (s : State) : (reject st s).prm = s.prm := rfl
@[simp] theorem reject_initialised (st : Status) (s : State) : (reject st s).initialised = s.initialised := rfl
@[simp] theorem reject_cfg (st : Status) (s : State) : (reject st s).cfg = s.cfg := rfl
@[simp] theorem reject_bufs (st : Status) (s : State) : (reject st s).bufs = s.bufs := rfl
@[simp] theorem reject_fb (st : Status) (s : State) : (reject st s).fb = s.fb := rfl
@[simp] theorem reject_head (st : Status) (s : State) : (reject st s).head = s.head := rfl
@[simp] theorem reject_tail (st : Status) (s : State) : (reject st s).tail = s.tail := rfl
@[simp] theorem reject_wrValid (st : Status) (s : State) : (reject st s).wrValid = s.wrValid := rfl
@[simp] theorem reject_jpegSize (st : Status) (s : State) : (reject st s).jpegSize = s.jpegSize := rfl
@[simp] theorem reject_active (st : Status) (s : State) : (reject st s).active = s.active := rfl
@[simp] theorem reject_resyncPending (st : Status) (s : State) : (reject st s).resyncPending = s.resyncPending := rfl
@[simp] theorem reject_expPid (st : Status) (s : State) : (reject st s).expPid = s.expPid := rfl
@[simp] theorem reject_expSeg (st : Status) (s : State) : (reject st s).expSeg = s.expSeg := rfl
@[simp] theorem reject_multi (st : Status) (s : State) : (reject st s).multi = s.multi := rfl
@[simp] theorem reject_drop (st : Status) (s : State) : (reject st s).drop = s.drop := rfl
@[simp] theorem reject_line (st : Status) (s : State) : (reject st s).line = s.line := rfl
@[simp] theorem reject_inFrame (st : Status) (s : State) : (reject st s).inFrame = s.inFrame := rfl
@[simp] theorem reject_reqEn (st : Status) (s : State) : (reject st s).reqEn = s.reqEn := rfl
@[simp] theorem reject_dstStride (st : Status) (s : State) : (reject st s).dstStride = s.dstStride := rfl
@[simp] theorem reject_srcOff (st : Status) (s : State) : (reject st s).srcOff = s.srcOff := rfl
@[simp] theorem reject_dstBurst (st : Status) (s : State) : (reject st s).dstBurst = s.dstBurst := rfl
@[simp] theorem reject_srcBurst (st : Status) (s : State) : (reject st s).srcBurst = s.srcBurst := rfl
@[simp] theorem reject_dmaEn (st : Status) (s : State) : (reject st s).dmaEn = s.dmaEn := rfl
@[simp] theorem reject_rr (st : Status) (s : State) : (reject st s).rr = s.rr := rfl
@[simp] theorem reject_pending (st : Status) (s : State) : (reject st s).pending = s.pending := rfl
@[simp] theorem reject_snap (st : Status) (s : State) : (reject st s).snap = s.snap := rfl
@[simp] theorem reject_tRs (st : Status) (s : State) : (reject st s).tRs = s.tRs := rfl
@[simp] theorem reject_tStart (st : Status) (s : State) : (reject st s).tStart = s.tStart := rfl
@[simp] theorem reject_timeout (st : Status) (s : State) : (reject st s).timeout = s.timeout := rfl
@[simp] theorem reject_nonblock (st : Status) (s : State) : (reject st s).nonblock = s.nonblock := rfl
@[simp] theorem reject_port (st : Status) (s : State) : (reject st s).port = s.port := rfl
@[simp] theorem reject_inputs (st : Status) (s : State) : (reject st s).inputs = s.inputs := rfl
@[simp] theorem reject_lastNow (st : Status) (s : State) : (reject st s).lastNow = s.lastNow := rfl
@[simp] theorem reject_draws (st : Status) (s : State) : (reject st s).draws = s.draws := rfl
@[simp] theorem reject_out (st : Status) (s : State) : (reject st s).out = { s.out with rsp := some (responseOf s st none false) } := rfl
@[simp] theorem reject_buf (st : Status) (s : State) (j : BitVec 8) : (reject st s).buf j = s.buf j := rfl
@[simp] theorem reject_nBufs (st : Status) (s : State) : (reject st s).nBufs = s.nBufs := rfl

/-! `setBuf`. -/

@[simp] theorem setBuf_prm (s : State) (i : BitVec 8) (b : Buf) : (s.setBuf i b).prm = s.prm := rfl
@[simp] theorem setBuf_initialised (s : State) (i : BitVec 8) (b : Buf) : (s.setBuf i b).initialised = s.initialised := rfl
@[simp] theorem setBuf_cfg (s : State) (i : BitVec 8) (b : Buf) : (s.setBuf i b).cfg = s.cfg := rfl
@[simp] theorem setBuf_bufs (s : State) (i : BitVec 8) (b : Buf) : (s.setBuf i b).bufs = s.bufs.set i.toNat b := rfl
@[simp] theorem setBuf_fb (s : State) (i : BitVec 8) (b : Buf) : (s.setBuf i b).fb = s.fb := rfl
@[simp] theorem setBuf_head (s : State) (i : BitVec 8) (b : Buf) : (s.setBuf i b).head = s.head := rfl
@[simp] theorem setBuf_tail (s : State) (i : BitVec 8) (b : Buf) : (s.setBuf i b).tail = s.tail := rfl
@[simp] theorem setBuf_wrValid (s : State) (i : BitVec 8) (b : Buf) : (s.setBuf i b).wrValid = s.wrValid := rfl
@[simp] theorem setBuf_jpegSize (s : State) (i : BitVec 8) (b : Buf) : (s.setBuf i b).jpegSize = s.jpegSize := rfl
@[simp] theorem setBuf_active (s : State) (i : BitVec 8) (b : Buf) : (s.setBuf i b).active = s.active := rfl
@[simp] theorem setBuf_resyncPending (s : State) (i : BitVec 8) (b : Buf) : (s.setBuf i b).resyncPending = s.resyncPending := rfl
@[simp] theorem setBuf_expPid (s : State) (i : BitVec 8) (b : Buf) : (s.setBuf i b).expPid = s.expPid := rfl
@[simp] theorem setBuf_expSeg (s : State) (i : BitVec 8) (b : Buf) : (s.setBuf i b).expSeg = s.expSeg := rfl
@[simp] theorem setBuf_multi (s : State) (i : BitVec 8) (b : Buf) : (s.setBuf i b).multi = s.multi := rfl
@[simp] theorem setBuf_drop (s : State) (i : BitVec 8) (b : Buf) : (s.setBuf i b).drop = s.drop := rfl
@[simp] theorem setBuf_line (s : State) (i : BitVec 8) (b : Buf) : (s.setBuf i b).line = s.line := rfl
@[simp] theorem setBuf_inFrame (s : State) (i : BitVec 8) (b : Buf) : (s.setBuf i b).inFrame = s.inFrame := rfl
@[simp] theorem setBuf_reqEn (s : State) (i : BitVec 8) (b : Buf) : (s.setBuf i b).reqEn = s.reqEn := rfl
@[simp] theorem setBuf_dstStride (s : State) (i : BitVec 8) (b : Buf) : (s.setBuf i b).dstStride = s.dstStride := rfl
@[simp] theorem setBuf_srcOff (s : State) (i : BitVec 8) (b : Buf) : (s.setBuf i b).srcOff = s.srcOff := rfl
@[simp] theorem setBuf_dstBurst (s : State) (i : BitVec 8) (b : Buf) : (s.setBuf i b).dstBurst = s.dstBurst := rfl
@[simp] theorem setBuf_srcBurst (s : State) (i : BitVec 8) (b : Buf) : (s.setBuf i b).srcBurst = s.srcBurst := rfl
@[simp] theorem setBuf_dmaEn (s : State) (i : BitVec 8) (b : Buf) : (s.setBuf i b).dmaEn = s.dmaEn := rfl
@[simp] theorem setBuf_rr (s : State) (i : BitVec 8) (b : Buf) : (s.setBuf i b).rr = s.rr := rfl
@[simp] theorem setBuf_pending (s : State) (i : BitVec 8) (b : Buf) : (s.setBuf i b).pending = s.pending := rfl
@[simp] theorem setBuf_snap (s : State) (i : BitVec 8) (b : Buf) : (s.setBuf i b).snap = s.snap := rfl
@[simp] theorem setBuf_tRs (s : State) (i : BitVec 8) (b : Buf) : (s.setBuf i b).tRs = s.tRs := rfl
@[simp] theorem setBuf_tStart (s : State) (i : BitVec 8) (b : Buf) : (s.setBuf i b).tStart = s.tStart := rfl
@[simp] theorem setBuf_timeout (s : State) (i : BitVec 8) (b : Buf) : (s.setBuf i b).timeout = s.timeout := rfl
@[simp] theorem setBuf_nonblock (s : State) (i : BitVec 8) (b : Buf) : (s.setBuf i b).nonblock = s.nonblock := rfl
@[simp] theorem setBuf_port (s : State) (i : BitVec 8) (b : Buf) : (s.setBuf i b).port = s.port := rfl
@[simp] theorem setBuf_inputs (s : State) (i : BitVec 8) (b : Buf) : (s.setBuf i b).inputs = s.inputs := rfl
@[simp] theorem setBuf_lastNow (s : State) (i : BitVec 8) (b : Buf) : (s.setBuf i b).lastNow = s.lastNow := rfl
@[simp] theorem setBuf_draws (s : State) (i : BitVec 8) (b : Buf) : (s.setBuf i b).draws = s.draws := rfl
@[simp] theorem setBuf_out (s : State) (i : BitVec 8) (b : Buf) : (s.setBuf i b).out = s.out := rfl
@[simp] theorem setBuf_nBufs (s : State) (i : BitVec 8) (b : Buf) : (s.setBuf i b).nBufs = s.nBufs := rfl

/-! `setPending`. -/

@[simp] theorem setPending_prm (s : State) (ch : Nat) (t : Option Transfer) : (s.setPending ch t).prm = s.prm := rfl
@[simp] theorem setPending_initialised (s : State) (ch : Nat) (t : Option Transfer) : (s.setPending ch t).initialised = s.initialised := rfl
@[simp] theorem setPending_cfg (s : State) (ch : Nat) (t : Option Transfer) : (s.setPending ch t).cfg = s.cfg := rfl
@[simp] theorem setPending_bufs (s : State) (ch : Nat) (t : Option Transfer) : (s.setPending ch t).bufs = s.bufs := rfl
@[simp] theorem setPending_fb (s : State) (ch : Nat) (t : Option Transfer) : (s.setPending ch t).fb = s.fb := rfl
@[simp] theorem setPending_head (s : State) (ch : Nat) (t : Option Transfer) : (s.setPending ch t).head = s.head := rfl
@[simp] theorem setPending_tail (s : State) (ch : Nat) (t : Option Transfer) : (s.setPending ch t).tail = s.tail := rfl
@[simp] theorem setPending_wrValid (s : State) (ch : Nat) (t : Option Transfer) : (s.setPending ch t).wrValid = s.wrValid := rfl
@[simp] theorem setPending_jpegSize (s : State) (ch : Nat) (t : Option Transfer) : (s.setPending ch t).jpegSize = s.jpegSize := rfl
@[simp] theorem setPending_active (s : State) (ch : Nat) (t : Option Transfer) : (s.setPending ch t).active = s.active := rfl
@[simp] theorem setPending_resyncPending (s : State) (ch : Nat) (t : Option Transfer) : (s.setPending ch t).resyncPending = s.resyncPending := rfl
@[simp] theorem setPending_expPid (s : State) (ch : Nat) (t : Option Transfer) : (s.setPending ch t).expPid = s.expPid := rfl
@[simp] theorem setPending_expSeg (s : State) (ch : Nat) (t : Option Transfer) : (s.setPending ch t).expSeg = s.expSeg := rfl
@[simp] theorem setPending_multi (s : State) (ch : Nat) (t : Option Transfer) : (s.setPending ch t).multi = s.multi := rfl
@[simp] theorem setPending_drop (s : State) (ch : Nat) (t : Option Transfer) : (s.setPending ch t).drop = s.drop := rfl
@[simp] theorem setPending_line (s : State) (ch : Nat) (t : Option Transfer) : (s.setPending ch t).line = s.line := rfl
@[simp] theorem setPending_inFrame (s : State) (ch : Nat) (t : Option Transfer) : (s.setPending ch t).inFrame = s.inFrame := rfl
@[simp] theorem setPending_reqEn (s : State) (ch : Nat) (t : Option Transfer) : (s.setPending ch t).reqEn = s.reqEn := rfl
@[simp] theorem setPending_dstStride (s : State) (ch : Nat) (t : Option Transfer) : (s.setPending ch t).dstStride = s.dstStride := rfl
@[simp] theorem setPending_srcOff (s : State) (ch : Nat) (t : Option Transfer) : (s.setPending ch t).srcOff = s.srcOff := rfl
@[simp] theorem setPending_dstBurst (s : State) (ch : Nat) (t : Option Transfer) : (s.setPending ch t).dstBurst = s.dstBurst := rfl
@[simp] theorem setPending_srcBurst (s : State) (ch : Nat) (t : Option Transfer) : (s.setPending ch t).srcBurst = s.srcBurst := rfl
@[simp] theorem setPending_dmaEn (s : State) (ch : Nat) (t : Option Transfer) : (s.setPending ch t).dmaEn = s.dmaEn := rfl
@[simp] theorem setPending_rr (s : State) (ch : Nat) (t : Option Transfer) : (s.setPending ch t).rr = s.rr := rfl
@[simp] theorem setPending_pending (s : State) (ch : Nat) (t : Option Transfer) : (s.setPending ch t).pending = s.pending.set ch t := rfl
@[simp] theorem setPending_snap (s : State) (ch : Nat) (t : Option Transfer) : (s.setPending ch t).snap = s.snap := rfl
@[simp] theorem setPending_tRs (s : State) (ch : Nat) (t : Option Transfer) : (s.setPending ch t).tRs = s.tRs := rfl
@[simp] theorem setPending_tStart (s : State) (ch : Nat) (t : Option Transfer) : (s.setPending ch t).tStart = s.tStart := rfl
@[simp] theorem setPending_timeout (s : State) (ch : Nat) (t : Option Transfer) : (s.setPending ch t).timeout = s.timeout := rfl
@[simp] theorem setPending_nonblock (s : State) (ch : Nat) (t : Option Transfer) : (s.setPending ch t).nonblock = s.nonblock := rfl
@[simp] theorem setPending_port (s : State) (ch : Nat) (t : Option Transfer) : (s.setPending ch t).port = s.port := rfl
@[simp] theorem setPending_inputs (s : State) (ch : Nat) (t : Option Transfer) : (s.setPending ch t).inputs = s.inputs := rfl
@[simp] theorem setPending_lastNow (s : State) (ch : Nat) (t : Option Transfer) : (s.setPending ch t).lastNow = s.lastNow := rfl
@[simp] theorem setPending_draws (s : State) (ch : Nat) (t : Option Transfer) : (s.setPending ch t).draws = s.draws := rfl
@[simp] theorem setPending_out (s : State) (ch : Nat) (t : Option Transfer) : (s.setPending ch t).out = s.out := rfl
@[simp] theorem setPending_buf (s : State) (ch : Nat) (t : Option Transfer) (j : BitVec 8) : (s.setPending ch t).buf j = s.buf j := rfl
@[simp] theorem setPending_nBufs (s : State) (ch : Nat) (t : Option Transfer) : (s.setPending ch t).nBufs = s.nBufs := rfl

/-! `take`. -/

@[simp] theorem take_prm (s : State) (x : Input) (rest : List Input) : (s.take x rest).prm = s.prm := rfl
@[simp] theorem take_initialised (s : State) (x : Input) (rest : List Input) : (s.take x rest).initialised = s.initialised := rfl
@[simp] theorem take_cfg (s : State) (x : Input) (rest : List Input) : (s.take x rest).cfg = s.cfg := rfl
@[simp] theorem take_bufs (s : State) (x : Input) (rest : List Input) : (s.take x rest).bufs = s.bufs := rfl
@[simp] theorem take_fb (s : State) (x : Input) (rest : List Input) : (s.take x rest).fb = s.fb := rfl
@[simp] theorem take_head (s : State) (x : Input) (rest : List Input) : (s.take x rest).head = s.head := rfl
@[simp] theorem take_tail (s : State) (x : Input) (rest : List Input) : (s.take x rest).tail = s.tail := rfl
@[simp] theorem take_wrValid (s : State) (x : Input) (rest : List Input) : (s.take x rest).wrValid = s.wrValid := rfl
@[simp] theorem take_jpegSize (s : State) (x : Input) (rest : List Input) : (s.take x rest).jpegSize = s.jpegSize := rfl
@[simp] theorem take_active (s : State) (x : Input) (rest : List Input) : (s.take x rest).active = s.active := rfl
@[simp] theorem take_resyncPending (s : State) (x : Input) (rest : List Input) : (s.take x rest).resyncPending = s.resyncPending := rfl
@[simp] theorem take_expPid (s : State) (x : Input) (rest : List Input) : (s.take x rest).expPid = s.expPid := rfl
@[simp] theorem take_expSeg (s : State) (x : Input) (rest : List Input) : (s.take x rest).expSeg = s.expSeg := rfl
@[simp] theorem take_multi (s : State) (x : Input) (rest : List Input) : (s.take x rest).multi = s.multi := rfl
@[simp] theorem take_drop (s : State) (x : Input) (rest : List Input) : (s.take x rest).drop = s.drop := rfl
@[simp] theorem take_line (s : State) (x : Input) (rest : List Input) : (s.take x rest).line = s.line := rfl
@[simp] theorem take_inFrame (s : State) (x : Input) (rest : List Input) : (s.take x rest).inFrame = s.inFrame := rfl
@[simp] theorem take_reqEn (s : State) (x : Input) (rest : List Input) : (s.take x rest).reqEn = s.reqEn := rfl
@[simp] theorem take_dstStride (s : State) (x : Input) (rest : List Input) : (s.take x rest).dstStride = s.dstStride := rfl
@[simp] theorem take_srcOff (s : State) (x : Input) (rest : List Input) : (s.take x rest).srcOff = s.srcOff := rfl
@[simp] theorem take_dstBurst (s : State) (x : Input) (rest : List Input) : (s.take x rest).dstBurst = s.dstBurst := rfl
@[simp] theorem take_srcBurst (s : State) (x : Input) (rest : List Input) : (s.take x rest).srcBurst = s.srcBurst := rfl
@[simp] theorem take_dmaEn (s : State) (x : Input) (rest : List Input) : (s.take x rest).dmaEn = s.dmaEn := rfl
@[simp] theorem take_rr (s : State) (x : Input) (rest : List Input) : (s.take x rest).rr = s.rr := rfl
@[simp] theorem take_pending (s : State) (x : Input) (rest : List Input) : (s.take x rest).pending = s.pending := rfl
@[simp] theorem take_snap (s : State) (x : Input) (rest : List Input) : (s.take x rest).snap = s.snap := rfl
@[simp] theorem take_tRs (s : State) (x : Input) (rest : List Input) : (s.take x rest).tRs = s.tRs := rfl
@[simp] theorem take_tStart (s : State) (x : Input) (rest : List Input) : (s.take x rest).tStart = s.tStart := rfl
@[simp] theorem take_timeout (s : State) (x : Input) (rest : List Input) : (s.take x rest).timeout = s.timeout := rfl
@[simp] theorem take_nonblock (s : State) (x : Input) (rest : List Input) : (s.take x rest).nonblock = s.nonblock := rfl
@[simp] theorem take_port (s : State) (x : Input) (rest : List Input) : (s.take x rest).port = x := rfl
@[simp] theorem take_inputs (s : State) (x : Input) (rest : List Input) : (s.take x rest).inputs = rest := rfl
@[simp] theorem take_lastNow (s : State) (x : Input) (rest : List Input) : (s.take x rest).lastNow = some x.now := rfl
@[simp] theorem take_draws (s : State) (x : Input) (rest : List Input) : (s.take x rest).draws = s.draws := rfl
@[simp] theorem take_out (s : State) (x : Input) (rest : List Input) : (s.take x rest).out = Output.empty := rfl
@[simp] theorem take_buf (s : State) (x : Input) (rest : List Input) (j : BitVec 8) : (s.take x rest).buf j = s.buf j := rfl
@[simp] theorem take_nBufs (s : State) (x : Input) (rest : List Input) : (s.take x rest).nBufs = s.nBufs := rfl

end Sys2Proof.Machine
end

