-- ==== Sys2Proof/Laws/Memory.lean ====
section
/-! SUPPORT. The laws of the frame-buffer store: reading after writing, and the canonical form. -/

namespace Sys2Proof.Machine

@[simp] theorem get?_nil (a : Nat) : Memory.get? [] a = none := rfl

theorem get?_cons (k : Nat) (b : Byte) (m : Memory) (a : Nat) :
    Memory.get? ((k, b) :: m) a = if a = k then some b else Memory.get? m a := rfl

/-- Reading after writing one byte. -/
theorem get?_set (m : Memory) (a : Nat) (b : Byte) (x : Nat) :
    Memory.get? (Memory.set m a b) x = if x = a then some b else Memory.get? m x := by
  induction m with
  | nil => simp [Memory.set, get?_cons]
  | cons c m ih =>
    obtain ⟨k, c⟩ := c
    by_cases h1 : a < k
    · simp [Memory.set, h1, get?_cons]
    · by_cases h2 : a = k
      · subst h2
        by_cases hx : x = a <;> simp [Memory.set, get?_cons, hx]
      · simp only [Memory.set, h1, h2, if_false, get?_cons, ih]
        by_cases hx : x = k
        · simp [hx, Ne.symm h2]
        · simp [hx]

/-- Reading after writing a byte string. -/
theorem get?_setRange (m : Memory) (a : Nat) (bs : List Byte) (x : Nat) :
    Memory.get? (Memory.setRange m a bs) x =
      if a ≤ x ∧ x < a + bs.length then bs[x - a]? else Memory.get? m x := by
  induction bs generalizing m a with
  | nil =>
    have h : ¬ (a ≤ x ∧ x < a + ([] : List Byte).length) := by simp
    rw [if_neg h]; rfl
  | cons b bs ih =>
    simp only [Memory.setRange, ih, get?_set, List.length_cons]
    by_cases h1 : x = a
    · subst h1; simp
    · by_cases h2 : a + 1 ≤ x ∧ x < a + 1 + bs.length
      · have h3 : a ≤ x ∧ x < a + (bs.length + 1) := by omega
        obtain ⟨d, hd⟩ : ∃ d, x - a = d + 1 := ⟨x - a - 1, by omega⟩
        have h4 : x - (a + 1) = d := by omega
        simp only [h2, h3, and_self, if_true, hd, h4, List.getElem?_cons_succ]
      · have h3 : ¬ (a ≤ x ∧ x < a + (bs.length + 1)) := by omega
        rw [if_neg h2, if_neg h1, if_neg h3]

theorem mem_set_key (m : Memory) (a : Nat) (b : Byte) (c : Host.Cell) (h : c ∈ Memory.set m a b) :
    c.1 = a ∨ c ∈ m := by
  induction m with
  | nil => simp [Memory.set] at h; simp [h]
  | cons d m ih =>
    obtain ⟨k, d⟩ := d
    simp only [Memory.set] at h
    split at h
    · simp only [List.mem_cons] at h ⊢; rcases h with rfl | h <;> simp_all
    · split at h
      · simp only [List.mem_cons] at h ⊢; rcases h with rfl | h <;> simp_all
      · simp only [List.mem_cons] at h ⊢
        rcases h with rfl | h
        · simp
        · rcases ih h with h | h <;> simp [h]

/-- Writing one byte keeps the canonical form. -/
theorem wf_set (m : Memory) (a : Nat) (b : Byte) (h : Memory.wf m = true) : Memory.wf (Memory.set m a b) = true := by
  induction m with
  | nil => simp [Memory.set, Memory.wf]
  | cons c m ih =>
    obtain ⟨k, c⟩ := c
    simp only [Memory.wf, Bool.and_eq_true, List.all_eq_true, decide_eq_true_eq] at h
    simp only [Memory.set]
    split
    · rename_i hak
      simp only [Memory.wf, List.all_cons, Bool.and_eq_true, List.all_eq_true, decide_eq_true_eq]
      exact ⟨⟨hak, fun x hx => Nat.lt_trans hak (h.1 x hx)⟩, h.1, h.2⟩
    · split
      · rename_i hak
        subst hak
        simp only [Memory.wf, Bool.and_eq_true, List.all_eq_true, decide_eq_true_eq]
        exact h
      · simp only [Memory.wf, Bool.and_eq_true, List.all_eq_true, decide_eq_true_eq]
        refine ⟨fun x hx => ?_, ih h.2⟩
        rcases mem_set_key m a b x hx with hx | hx
        · omega
        · exact h.1 x hx

/-- Writing a byte string keeps the canonical form. -/
theorem wf_setRange (m : Memory) (a : Nat) (bs : List Byte) (h : Memory.wf m = true) :
    Memory.wf (Memory.setRange m a bs) = true := by
  induction bs generalizing m a with
  | nil => exact h
  | cons b bs ih => exact ih _ _ (wf_set m a b h)

/-- Distinct bytes of the store have distinct keys (`CAP < 2^32`). -/
theorem fbKey_inj {i j o p : Nat} (ho : o < 4294967296) (hp : p < 4294967296) (h : fbKey i o = fbKey j p) :
    i = j ∧ o = p := by
  simp only [fbKey] at h; omega

theorem fbKey_add (i o k : Nat) : fbKey i o + k = fbKey i (o + k) := by simp only [fbKey]; omega

/-- What `MemWrite` does when it succeeds (R8): it changes the store and nothing else. -/
theorem fbWrite_ok {s t : State} {i : BitVec 8} {off : Nat} {bs : List Byte} (h : fbWrite s i off bs = .ok t) :
    inStore s.prm i off bs.length = true ∧ t = { s with fb := Memory.setRange s.fb (fbKey i.toNat off) bs } := by
  unfold fbWrite at h
  split at h
  · exact ⟨‹_›, by cases h; rfl⟩
  · cases h

/-- `MemWrite` inside the store succeeds. -/
theorem fbWrite_inStore (s : State) (i : BitVec 8) (off : Nat) (bs : List Byte)
    (h : inStore s.prm i off bs.length = true) :
    fbWrite s i off bs = .ok { s with fb := Memory.setRange s.fb (fbKey i.toNat off) bs } := by
  unfold fbWrite; simp [h]

theorem inStore_iff (p : Params) (i : BitVec 8) (off n : Nat) :
    inStore p i off n = true ↔ i.toNat < p.nmax ∧ off + n ≤ p.cap := by
  simp [inStore]

/-- Reading one byte after a `MemWrite`: the written bytes are there and every other byte is as before. -/
theorem fbByte_setRange (s : State) (i j : BitVec 8) (off o : Nat) (bs : List Byte)
    (h1 : off + bs.length ≤ 4294967296) (h2 : o < 4294967296) :
    fbByte { s with fb := Memory.setRange s.fb (fbKey i.toNat off) bs } j o =
      if j = i ∧ off ≤ o ∧ o < off + bs.length then bs.getD (o - off) 0#8 else fbByte s j o := by
  unfold fbByte
  simp only [get?_setRange]
  by_cases h : j = i ∧ off ≤ o ∧ o < off + bs.length
  · obtain ⟨rfl, h3, h4⟩ := h
    have h5 : fbKey j.toNat off ≤ fbKey j.toNat o ∧ fbKey j.toNat o < fbKey j.toNat off + bs.length := by
      simp only [fbKey]; omega
    have h6 : fbKey j.toNat o - fbKey j.toNat off = o - off := by simp only [fbKey]; omega
    have h7 : o - off < bs.length := by omega
    simp [h3, h4, h5, h6, h7]
  · have h5 : ¬ (fbKey i.toNat off ≤ fbKey j.toNat o ∧ fbKey j.toNat o < fbKey i.toNat off + bs.length) := by
      intro h6
      apply h
      have h7 : j.toNat = i.toNat := by simp only [fbKey] at h6; omega
      refine ⟨BitVec.eq_of_toNat_eq h7, ?_⟩
      simp only [fbKey, h7] at h6; omega
    simp [h, h5]

end Sys2Proof.Machine
end

