-- ==== Sys2Proof/Laws/Ops.lean ====
section
/-! SUPPORT. What each shared operation of Machine/Ops.lean does, said once: the descriptor file, admission, `Commit`, the
pool reset, `DoAbort`, the start of a frame and the landing of a transfer; and that every operation on the store keeps its
canonical form. -/

namespace Sys2Proof.Machine

/-! ## The descriptor file -/

/-- Reading the entry just written. -/
theorem buf_setBuf (s : State) (i : BitVec 8) (b : Buf) (h : i.toNat < s.bufs.length) : (s.setBuf i b).buf i = b := by
  simp [State.buf, State.setBuf, h]

/-- Reading another entry. -/
theorem buf_setBuf_ne (s : State) (i j : BitVec 8) (b : Buf) (h : j ≠ i) : (s.setBuf i b).buf j = s.buf j := by
  have h1 : i.toNat ≠ j.toNat := fun e => h (BitVec.eq_of_toNat_eq e.symm)
  simp [State.buf, State.setBuf, h1]

/-- A buffer that is not FREE has an entry in the file. -/
theorem lt_length_of_st_ne_free {s : State} {i : BitVec 8} (h : (s.buf i).st ≠ .free) : i.toNat < s.bufs.length := by
  by_contra hh
  apply h
  simp [State.buf, List.getD_eq_getElem?_getD, List.getElem?_eq_none (Nat.le_of_not_lt hh), Buf.reset]

/-- Writing an entry twice. -/
theorem setBuf_setBuf (s : State) (i : BitVec 8) (b c : Buf) : (s.setBuf i b).setBuf i c = s.setBuf i c := by
  simp [State.setBuf, List.set_set]

/-- Writing back what an entry holds. -/
theorem setBuf_buf (s : State) (i : BitVec 8) : s.setBuf i (s.buf i) = s := by
  have h1 : s.bufs.set i.toNat (s.bufs.getD i.toNat Buf.reset) = s.bufs := by
    by_cases h : i.toNat < s.bufs.length
    · rw [List.getD_eq_getElem _ _ h, List.set_getElem_self]
    · exact List.set_eq_of_length_le (Nat.le_of_not_lt h)
  simp only [State.setBuf, State.buf, h1]

/-- The first `n` entries reset, the others kept (R131). -/
theorem freeFirst_eq (n : Nat) (bs : List Buf) (h : n ≤ bs.length) :
    freeFirst n bs = List.replicate n ⟨.free, 0#32, 0#3⟩ ++ bs.drop n := by
  induction n generalizing bs with
  | zero => simp [freeFirst]
  | succ n ih =>
    cases bs with
    | nil => simp at h
    | cons b bs =>
      simp only [freeFirst, ih bs (by simpa using h), List.replicate_succ, List.cons_append, List.drop_succ_cons]
      rfl

theorem freeFirst_length (n : Nat) (bs : List Buf) : (freeFirst n bs).length = bs.length := by
  induction n generalizing bs with
  | zero => rfl
  | succ n ih => cases bs with
    | nil => rfl
    | cons b bs => simp [freeFirst, ih]

/-- The body of `SETUP_BUFFERS` (R131). -/
theorem resetPool_eq (s : State) (h : (cfgNBuffers s.cfg).toNat ≤ s.bufs.length) : resetPool s = poolReset s := by
  have h1 := freeFirst_eq s.nBufs s.bufs h
  simp only [resetPool, poolReset, h1]
  rfl

/-! ## Responses and admission -/

/-- The answer OK about a buffer. -/
theorem respond_ok_some (s : State) (i : BitVec 8) (did : Bool) :
    respond .ok (some i) did s = s.answered (okAbout i (s.buf i) did) := rfl

/-- An answer about no buffer. -/
theorem respond_none (s : State) (st : Status) (did : Bool) :
    respond st none did s = s.answered { rsp := rspWord st.code 0xFF#8 0#3 0#2 did, rsp2 := 0#32 } := rfl

theorem admitThread_ready {s : State} (h : ThreadReady s) : admitThread s true = none := by
  simp [admitThread, h.1, h.2]

theorem admitProducer_ready {s : State} (h : ProducerReady s) : admitProducer s true = none := by
  simp [admitProducer, h.1, h.2]

/-! ## The pool procedures -/

/-- `Commit` (R134). -/
theorem commit_eq (checked : Bool) (s : State) :
    commit checked s =
      State.called
        { s with
          bufs := s.bufs.set s.tail.toNat
            { s.buf s.tail with
              st := .readable, bflags := if checked then (s.buf s.tail).bflags ||| 4#3 else (s.buf s.tail).bflags },
          wrValid := false, tail := after s s.tail }
        (callbackOf s) := by
  have h1 : (if checked = true then setStored (s.buf s.tail).bflags flagCheckLast else (s.buf s.tail).bflags) =
      if checked = true then (s.buf s.tail).bflags ||| 4#3 else (s.buf s.tail).bflags := by cases checked <;> rfl
  unfold commit callbackOf State.called
  simp only [h1]
  by_cases h2 : cfgCbEn s.cfg = true
  · rw [if_pos h2, if_pos h2]; rfl
  · rw [if_neg h2, if_neg h2, List.append_nil]; rfl

/-- Returning the HELD buffer (R139). -/
theorem freeHead_eq (s : State) :
    freeHead s =
      { s with bufs := s.bufs.set s.head.toNat { s.buf s.head with st := .free }, head := after s s.head } := rfl

/-- Taking the buffer at `tail` (R132). -/
theorem takeTail_eq (s : State) :
    takeTail s = { s with bufs := s.bufs.set s.tail.toNat ⟨.writing, 0#32, 0#3⟩, wrValid := true } := rfl

/-- `FrameStartBuffer` (R225) with a buffer: whichever arm gives it, the buffer at `tail` is WRITING with its cursor and its
flags clear, and the token is valid. -/
theorem frameStartBuffer_available {s : State} (h : BufferAvailable s) :
    frameStartBuffer s =
      some { s with bufs := s.bufs.set s.tail.toNat ⟨.writing, 0#32, 0#3⟩, wrValid := true } := by
  unfold frameStartBuffer
  rcases h.2 with h1 | ⟨h1, h2⟩
  · have h3 : ¬ ((s.buf s.tail).st = .writing ∧ s.wrValid = true) := by rw [h1]; simp
    rw [if_neg h3, if_pos h1, takeTail_eq]
  · rw [if_pos ⟨h1, h2⟩]
    simp only [clearBuf, State.setBuf, h1, ← h2]

/-- `FrameStartBuffer` without one. -/
theorem frameStartBuffer_none {s : State} (ht : s.tail.toNat < s.bufs.length) (h : ¬ BufferAvailable s) :
    frameStartBuffer s = none := by
  unfold frameStartBuffer
  rw [if_neg (fun h1 => h ⟨ht, .inr h1⟩), if_neg (fun h1 => h ⟨ht, .inl h1⟩)]

/-! ## Abort -/

/-- What cancelling the pending transfers does to the store and to the count of draws (R226, U2). -/
theorem cancelTransfers_spec (p : Params) (ts : List (Option Transfer)) (m : Memory) (d : Nat) :
    d ≤ (cancelTransfers p ts m d).2 ∧
    (∀ k, InDestination p ts k →
      ∃ n, d ≤ n ∧ n < (cancelTransfers p ts m d).2 ∧
        Memory.get? (cancelTransfers p ts m d).1 k = some (Config.freeByte n)) ∧
    (∀ k, ¬ InDestination p ts k → Memory.get? (cancelTransfers p ts m d).1 k = Memory.get? m k) := by
  induction ts generalizing m d with
  | nil => exact ⟨Nat.le_refl _, fun k ⟨t, h, _⟩ => by simp at h, fun k _ => rfl⟩
  | cons t ts ih =>
    cases t with
    | none =>
      have e : ∀ k, InDestination p (none :: ts) k ↔ InDestination p ts k := by intro k; simp [InDestination]
      simp only [e]
      exact ih m d
    | some t =>
      have hl : (freeBytes d t.bytes.length).length = t.bytes.length := by simp [freeBytes]
      by_cases hs : inStore p t.buf t.off t.bytes.length = true
      · have e : cancelTransfers p (some t :: ts) m d =
            cancelTransfers p ts (Memory.setRange m (fbKey t.buf.toNat t.off) (freeBytes d t.bytes.length))
              (d + t.bytes.length) := by simp [cancelTransfers, hs]
        rw [e]
        obtain ⟨h1, h2, h3⟩ :=
          ih (Memory.setRange m (fbKey t.buf.toNat t.off) (freeBytes d t.bytes.length)) (d + t.bytes.length)
        refine ⟨by omega, fun k hk => ?_, fun k hk => ?_⟩
        · by_cases hk2 : InDestination p ts k
          · obtain ⟨n, a, b, c⟩ := h2 k hk2
            exact ⟨n, by omega, b, c⟩
          · rw [h3 k hk2, get?_setRange, hl]
            obtain ⟨t', ht', hs', hr⟩ := hk
            rcases List.mem_cons.1 ht' with ht' | ht'
            · cases ht'
              rw [if_pos hr]
              have h4 : k - fbKey t.buf.toNat t.off < t.bytes.length := by omega
              exact ⟨d + (k - fbKey t.buf.toNat t.off), by omega, by omega, by simp [freeBytes, h4]⟩
            · exact absurd ⟨t', ht', hs', hr⟩ hk2
        · have hk2 : ¬ InDestination p ts k := fun ⟨t', a, b⟩ => hk ⟨t', List.mem_cons_of_mem _ a, b⟩
          rw [h3 k hk2, get?_setRange, hl, if_neg]
          exact fun hr => hk ⟨t, by simp, hs, hr⟩
      · have e : cancelTransfers p (some t :: ts) m d = cancelTransfers p ts m d := by simp [cancelTransfers, hs]
        have e2 : ∀ k, InDestination p (some t :: ts) k ↔ InDestination p ts k := by
          intro k
          constructor
          · rintro ⟨t', ht', hs', hr⟩
            rcases List.mem_cons.1 ht' with ht' | ht'
            · cases ht'; exact absurd hs' hs
            · exact ⟨t', ht', hs', hr⟩
          · rintro ⟨t', a, b⟩
            exact ⟨t', List.mem_cons_of_mem _ a, b⟩
        rw [e]
        simp only [e2]
        exact ih m d

/-- `DoAbort` (R226). -/
theorem doAbort_aborted (s : State) : Aborted s (doAbort s) := by
  obtain ⟨h1, h2, h3⟩ := cancelTransfers_spec s.prm s.pending s.fb s.draws
  refine ⟨_, _, h1, h2, h3, ?_⟩
  have e : (s.pending.map fun _ => (none : Option Transfer)) = List.replicate s.pending.length none := by simp
  unfold doAbort State.called emitAll abortEffects
  simp only [e]
  cases cfgEngine s.cfg <;> simp

/-! ## Transfers and the canonical form of the store -/

/-- `Land` of a record inside the store (R194). -/
theorem land_inStore (s : State) (ch : Nat) (t : Transfer) (h : inStore s.prm t.buf t.off t.bytes.length = true) :
    land s ch t = .ok
      { s with
        fb := Memory.setRange s.fb (fbKey t.buf.toNat t.off) t.bytes, pending := s.pending.set ch none } := by
  simp only [land, fbWrite_inStore s t.buf t.off t.bytes h]
  rfl

/-- Writing a byte string is what `StoredAt` says. -/
theorem storedAt_setRange (m : Memory) (a : Nat) (bytes : List Byte) : StoredAt m (Memory.setRange m a bytes) a bytes :=
  fun k => get?_setRange m a bytes k

/-- `MemWrite` keeps the canonical form. -/
theorem wf_fbWrite {s t : State} {i : BitVec 8} {off : Nat} {bytes : List Byte} (h : fbWrite s i off bytes = .ok t)
    (hw : Memory.wf s.fb = true) : Memory.wf t.fb = true := by
  rw [(fbWrite_ok h).2]
  exact wf_setRange _ _ _ hw

/-- Landing a transfer keeps the canonical form. -/
theorem wf_land {s t : State} {ch : Nat} {r : Transfer} (h : land s ch r = .ok t) (hw : Memory.wf s.fb = true) :
    Memory.wf t.fb = true := by
  unfold land at h
  split at h
  · rename_i s1 h1
    cases h
    exact (wf_fbWrite h1 hw : Memory.wf s1.fb = true)
  · cases h

/-- Cancelling transfers keeps the canonical form. -/
theorem wf_cancelTransfers (p : Params) (ts : List (Option Transfer)) (m : Memory) (d : Nat)
    (h : Memory.wf m = true) : Memory.wf (cancelTransfers p ts m d).1 = true := by
  induction ts generalizing m d with
  | nil => exact h
  | cons t ts ih =>
    cases t with
    | none => exact ih m d h
    | some t =>
      simp only [cancelTransfers]
      split
      · exact ih _ _ (wf_setRange _ _ _ h)
      · exact ih _ _ h

/-- The store of the reset state has the canonical form. -/
theorem wf_reset : Memory.wf State.reset.fb = true := rfl

/-- The parameters of the block built meet R6. -/
theorem params_valid : Config.params.valid = true := by
  have h1 := Nat.mod_lt Config.rawCap (by decide : 0 < 2 ^ 32 - 1)
  have h2 := Nat.mod_lt Config.rawSegPkts (by decide : 0 < 4095)
  have h3 := Nat.mod_lt Config.rawSpecialPid (by omega : 0 < 1 + Config.rawSegPkts % 4095)
  have h4 := Nat.mod_lt Config.rawResync (by decide : 0 < 2 ^ 32 - 1)
  have h5 := Nat.mod_lt Config.rawNch (by decide : 0 < 256)
  have h6 := Nat.mod_lt Config.rawDmaRetry (by decide : 0 < 8)
  have h7 := Nat.mod_lt Config.rawLinebufCap (by decide : 0 < 65536)
  unfold Params.valid Config.params
  simp only
  generalize Config.rawSpecialPid % (1 + Config.rawSegPkts % 4095) = k at h3 ⊢
  simp only [Bool.and_eq_true, decide_eq_true_eq]
  omega

end Sys2Proof.Machine
end

