-- ==== Sys2Proof/Laws/Control.lean ====
section
/-! SUPPORT. What the procedures of Machine/Control.lean do, said once in the words of Safety.lean: `ConfigLegal`,
`GeometryValid`, `StartCapture`, admission of a snapshot, `WaitCheck` without a frame, the marker search and `Describe`. -/

namespace Sys2Proof.Machine

/-- `ConfigLegal` (R252) fails exactly on the records with one of the faults the rule names. -/
theorem illegal_iff (p : Params) (c : BitVec 160) : configLegal p c = false ↔ IllegalConfig p c := by
  have e1 : cfgEngine c = .reserved ↔ c.extractLsb' 0 2 = 3#2 := by
    unfold cfgEngine cfgEngineCode; generalize c.extractLsb' 0 2 = e; revert e; decide
  have e2 : cfgPixFmt c = .reserved ↔ (c.extractLsb' 2 3 = 0#3 ∨ c.extractLsb' 2 3 = 6#3 ∨ c.extractLsb' 2 3 = 7#3) := by
    unfold cfgPixFmt cfgPixCode; generalize c.extractLsb' 2 3 = e; revert e; decide
  have e3 : cfgEngine c = .serial ↔ c.extractLsb' 0 2 = 1#2 := by
    unfold cfgEngine cfgEngineCode; generalize c.extractLsb' 0 2 = e; revert e; decide
  have e4 : cfgEngine c = .raster ↔ c.extractLsb' 0 2 = 2#2 := by
    unfold cfgEngine cfgEngineCode; generalize c.extractLsb' 0 2 = e; revert e; decide
  have e5 : cfgPixFmt c = .jpeg ↔ c.extractLsb' 2 3 = 5#3 := by
    unfold cfgPixFmt cfgPixCode; generalize c.extractLsb' 2 3 = e; revert e; decide
  have : configLegal p c = true ↔ ¬ IllegalConfig p c := by
    unfold configLegal IllegalConfig
    simp only [Bool.and_eq_true, decide_eq_true_eq, Bool.or_eq_true, ne_eq]
    simp only [e1, e2, e3, e4, e5, cfgNBuffers, cfgReserved, cfgPpf]
    constructor
    · rintro ⟨⟨⟨⟨⟨⟨h1, h2⟩, h3⟩, h4⟩, h5⟩, h6⟩, h7⟩
      rintro (h | h | h | h | h | h | h | h | h)
      · exact h2 h
      · exact h3 (.inl h)
      · exact h3 (.inr (.inl h))
      · exact h3 (.inr (.inr h))
      · exact h1 h
      · omega
      · exact h h4
      · rcases h6 with h6 | h6
        · exact h6 h.1
        · rcases h6 with h6 | h6
          · exact h.2.1 h6
          · exact h.2.2 h6
      · rcases h7 with h7 | h7
        · exact h7 h.1
        · exact h.2 h7
    · intro h
      simp only [not_or] at h
      obtain ⟨h1, h2, h3, h4, h5, h6, h7, h8, h9⟩ := h
      refine ⟨⟨⟨⟨⟨⟨h5, h1⟩, ?_⟩, by simpa using h7⟩, by omega⟩, ?_⟩, ?_⟩
      · rintro (h | h | h)
        · exact h2 h
        · exact h3 h
        · exact h4 h
      · by_cases hh : c.extractLsb' 0 2 = 1#2
        · right; by_contra hc; simp only [not_or] at hc; exact h8 ⟨hh, hc⟩
        · exact .inl hh
      · by_cases hh : c.extractLsb' 2 3 = 5#3
        · right; by_contra hc; exact h9 ⟨hh, hc⟩
        · exact .inl hh
  constructor
  · intro h; by_contra hh; rw [this.2 hh] at h; cases h
  · intro h; by_contra hh; exact this.1 (by simpa using hh) h

/-- `GeometryValid` (R261) is the list of tests of the rule. -/
theorem geo_iff (s : State) : geometryValid s = true ↔ GeometryOk s := by
  unfold geometryValid GeometryOk
  cases h : cfgEngine s.cfg
  · simp
  · simp [frameBytes, segCount]
  · by_cases hj : cfgPixFmt s.cfg = .jpeg
    · simp [hj, Nat.dvd_iff_mod_eq_zero, and_assoc]
    · simp [hj, Nat.dvd_iff_mod_eq_zero, and_assoc]
  · simp

/-! ## Snapshots -/

theorem exec_snapshot (s : State) (nb : Bool) (h : ThreadReady s) :
    exec (.snapshot (snapshotFlags nb)) s = finish (snapshotBody (snapshotFlags nb) s) := by
  have hl : flagsLegal .snapshot (snapshotFlags nb) = true := by cases nb <;> decide
  simp only [exec, execSnapshot, hl, admitThread_ready h]

theorem hasFlag_snapshotFlags (nb : Bool) : hasFlag (snapshotFlags nb) flagNonblock = nb := by cases nb <;> decide

theorem snapshotBody_not_held (s : State) (nb : Bool) (h : (s.buf s.head).st ≠ .held) :
    snapshotBody (snapshotFlags nb) s =
      if s.active then enterWait (requested s nb) else arm (requested s nb) := by
  unfold snapshotBody returnHeld
  rw [if_neg h, hasFlag_snapshotFlags]
  rfl

theorem startCapture_eq (s : State) : startCapture s = captureStarted s := by
  unfold startCapture captureStarted startEffects State.called emitAll
  cases h : cfgEngine s.cfg <;> simp

theorem deriveBurst_eq (s : State) : deriveBurst s = burstsDerived s := by
  unfold burstsDerived deriveBurst
  split <;> rfl

theorem enterWait_eq (s : State) : enterWait s = waitCheck (waiting s) := rfl

/-- A check of the wait loop that finds no frame always goes on (R263). -/
theorem waitCheck_no_frame (s : State) (h : (s.buf s.head).st ≠ .readable) : ∃ t, waitCheck s = .ok t := by
  unfold waitCheck
  rw [if_neg h]
  split
  · exact ⟨_, rfl⟩
  · split
    · exact ⟨_, rfl⟩
    · exact ⟨_, rfl⟩

theorem storedFlag_overflow (b : BitVec 3) : storedFlag b flagOverflow = b.getLsbD 0 := by
  revert b
  decide

theorem storedFlag_invalidate (b : BitVec 3) : BitVec.ofBool (storedFlag b flagInvalidate) = b.extractLsb' 1 1 := by
  revert b
  decide

/-- `Describe` (R265) on the buffer at `head`, taken and described, at the end of a wait. -/
theorem describeWith_delivered (s : State) (size : Word) (ht : s.head.toNat < s.bufs.length) (_h : s.snap = .wait) :
    { describeWith s.head size (holdHead s) with snap := .idle } = frameDelivered s size := by
  have key : ∀ b : Buf, b.bflags = (s.buf s.head).bflags → { describeWith s.head size (s.setBuf s.head b) with snap := .idle } = { s with
    bufs := s.bufs.set s.head.toNat b, snap := .idle,
    out := { s.out with
      rsp := some (okAbout s.head b false),
      desc := some {
        desc0 := (if cfgTranspose s.cfg then cfgU s.cfg else cfgV s.cfg) ++
          (if cfgTranspose s.cfg then cfgV s.cfg else cfgU s.cfg),
        desc1 := size,
        desc2 := 0#7 ++ (s.buf s.head).bflags.extractLsb' 1 1 ++ s.head ++
          subfmtShift (cfgPixCode s.cfg) (cfgSubformat s.cfg) (cfgX s.cfg) (cfgY s.cfg) (cfgTranspose s.cfg) ++
          0#5 ++ cfgPixCode s.cfg } } } := by
    intro b hbf
    have hb := buf_setBuf s s.head b ht
    have hb2 : ∀ o : Output, ({ (s.setBuf s.head b) with out := o } : State).buf s.head = b := fun o => hb
    unfold describeWith descriptorOf
    simp only [respond_ok_some, hb2, ← hbf]
    simp only [storedFlag_invalidate, outHeight, outWidth]
    rfl
  exact key _ rfl

/-! ## The marker search -/

/-- The search finds the first marker of its range (R265). -/
theorem firstMarker_eq (s : State) (i : BitVec 8) (m : Nat) (h1 : fbByte s i m = 0xFF#8) (h2 : fbByte s i (m + 1) = 0xD9#8)
    (h3 : ∀ k, k < m → ¬ (fbByte s i k = 0xFF#8 ∧ fbByte s i (k + 1) = 0xD9#8)) (fuel from_ : Nat) (hf : from_ ≤ m) (hm : m < from_ + fuel) :
    firstMarker s i fuel from_ = some m := by
  induction fuel generalizing from_ with
  | zero => omega
  | succ n ih =>
    unfold firstMarker
    by_cases he : from_ = m
    · subst he; rw [if_pos ⟨h1, h2⟩]
    · rw [if_neg (h3 _ (by omega))]; exact ih (from_+1) (by omega) (by omega)

/-- The search finds a marker exactly when its range holds one (R193). -/
theorem firstMarker_some (s : State) (i : BitVec 8) (fuel j : Nat) : (firstMarker s i fuel j).isSome = true ↔ ∃ m, j ≤ m ∧ m < j + fuel ∧ fbByte s i m = 0xFF#8 ∧ fbByte s i (m+1) = 0xD9#8 := by
  induction fuel generalizing j with
  | zero => simp [firstMarker]; omega
  | succ n ih =>
    unfold firstMarker
    split
    · rename_i h; simp; exact ⟨j, by omega, by omega, h⟩
    · rename_i h; rw [ih]; constructor
      · rintro ⟨m, a, b, c⟩; exact ⟨m, by omega, by omega, c⟩
      · rintro ⟨m, a, b, c⟩
        refine ⟨m, ?_, by omega, c⟩
        by_contra hh; have : m = j := by omega
        subst this; exact h c

/-- `EoiIn` (R193). -/
theorem eoiIn_iff (s : State) (old new : Nat) : eoiIn s s.tail old new = true ↔ MarkerFound s old new := by
  unfold eoiIn MarkerFound scanStart
  rw [firstMarker_some]
  constructor
  · rintro ⟨m, a, b, c⟩
    exact ⟨m, a, by omega, c⟩
  · rintro ⟨m, a, b, c⟩
    exact ⟨m, a, by omega, c⟩

end Sys2Proof.Machine
end

