-- ==== Sys2Proof/Laws/Encoding.lean ====
section
/-! SUPPORT. The fields of a command or event word (30_encoding R90, R94): reading the fields of a word put together from
fields, and the word put together from the fields of a word. -/

namespace Sys2Proof

/-- The word of the fields `ctx`, byte 23:16, byte 15:8, `op`, with a zero `zero` field: what `encode` makes. -/
def wordOf (c : Bool) (b a o : BitVec 8) : Word := BitVec.ofBool c ++ 0#7 ++ b ++ a ++ o

theorem encode_eq_wordOf (i : Instr) : encode i = wordOf i.ctx.bit i.fieldB i.fieldA i.opcode.code := rfl

/-- Bit `i` of a word put together from fields. -/
theorem wordOf_bit (c : Bool) (b a o : BitVec 8) (i : Nat) :
    (wordOf c b a o).getLsbD i =
      if i < 8 then o.getLsbD i else if i < 16 then a.getLsbD (i - 8) else if i < 24 then b.getLsbD (i - 16)
      else if i < 31 then false else (decide (i = 31) && c) := by
  have e : (wordOf c b a o).getLsbD i =
      (BitVec.ofBool c ++ 0#7 ++ b ++ a ++ o : BitVec (1 + 7 + 8 + 8 + 8)).getLsbD i := rfl
  rw [e]
  simp only [BitVec.getLsbD_append]
  by_cases h1 : i < 8
  · simp [h1]
  by_cases h2 : i < 16
  · have : i - 8 < 8 := by omega
    simp [h1, h2, this]
  by_cases h3 : i < 24
  · have h4 : ¬ i - 8 < 8 := by omega
    have h5 : i - 8 - 8 < 8 := by omega
    have h6 : i - 8 - 8 = i - 16 := by omega
    rw [h6] at h5
    simp [h1, h2, h3, h4, h5, h6]
  by_cases h7 : i < 31
  · have h4 : ¬ i - 8 < 8 := by omega
    have h5 : ¬ i - 8 - 8 < 8 := by omega
    have h6 : i - 8 - 8 - 8 < 7 := by omega
    simp [h1, h2, h3, h4, h5, h6, h7]
  · have h4 : ¬ i - 8 < 8 := by omega
    have h5 : ¬ i - 8 - 8 < 8 := by omega
    have h6 : ¬ i - 8 - 8 - 8 < 7 := by omega
    have h8 : (i - 8 - 8 - 8 - 7 = 0) ↔ i = 31 := by omega
    simp [h1, h2, h3, h4, h5, h6, h7, BitVec.getLsbD_ofBool, h8]

/-- The fields of a word put together from fields. -/
theorem wordOf_fields (c : Bool) (b a o : BitVec 8) :
    (wordOf c b a o).extractLsb' 0 8 = o ∧ (wordOf c b a o).extractLsb' 8 8 = a ∧
    (wordOf c b a o).extractLsb' 16 8 = b ∧ (wordOf c b a o).extractLsb' 24 7 = 0#7 ∧
    (wordOf c b a o).getLsbD 31 = c := by
  refine ⟨?_, ?_, ?_, ?_, by rw [wordOf_bit]; simp⟩ <;> apply BitVec.eq_of_getLsbD_eq <;> intro i hi <;>
    simp only [BitVec.getLsbD_extractLsb', wordOf_bit, hi, decide_true, Bool.true_and]
  · rw [if_pos (by omega)]; simp
  · rw [if_neg (by omega), if_pos (by omega)]; simp
  · rw [if_neg (by omega), if_neg (by omega), if_pos (by omega)]; simp
  · rw [if_neg (by omega), if_neg (by omega), if_neg (by omega), if_pos (by omega)]; simp

/-- A word with a zero `zero` field is put together from its fields. -/
theorem wordOf_extract (w : Word) (h : w.extractLsb' 24 7 = 0#7) :
    wordOf (w.getLsbD 31) (w.extractLsb' 16 8) (w.extractLsb' 8 8) (w.extractLsb' 0 8) = w := by
  apply BitVec.eq_of_getLsbD_eq
  intro i hi
  rw [wordOf_bit]
  split
  · simp [*]
  split
  · rw [BitVec.getLsbD_extractLsb', show 8 + (i - 8) = i by omega]; simp; omega
  split
  · rw [BitVec.getLsbD_extractLsb', show 16 + (i - 16) = i by omega]; simp; omega
  split
  · have h1 := congrArg (fun v => v.getLsbD (i - 24)) h
    simp only [BitVec.getLsbD_extractLsb', show 24 + (i - 24) = i by omega] at h1
    have h2 : i - 24 < 7 := by omega
    simp [h2] at h1
    simp [h1]
  · have h1 : i = 31 := by omega
    subst h1; simp

/-- The context of an instruction is what bit 31 of its word says. -/
@[simp] theorem ctxOfBit_bit (c : Ctx) : ctxOfBit c.bit = c := by cases c <;> rfl

@[simp] theorem bit_ctxOfBit (b : Bool) : (ctxOfBit b).bit = b := by cases b <;> rfl

/-- The opcode with the number of an opcode is that opcode. -/
@[simp] theorem opcodeOf_code (o : Opcode) : opcodeOf o.code = some o := by cases o <;> decide

/-- An opcode that a number has is the opcode with that number. -/
theorem code_of_opcodeOf {b : BitVec 8} {o : Opcode} (h : opcodeOf b = some o) : o.code = b := by
  have := List.find?_some h
  simpa using this

/-- What a word that decodes passed (R107, R108). -/
theorem decode_ok {jpeg : Bool} {w : Word} {i : Instr} (h : decode jpeg w = .ok i) :
    ∃ o, opcodeOf (w.extractLsb' 0 8) = some o ∧
      fieldReject o (w.extractLsb' 8 8) (w.extractLsb' 16 8) (w.extractLsb' 24 7) (ctxOfBit (w.getLsbD 31)) = none ∧
      i = instrOf jpeg (w.extractLsb' 8 8) (w.extractLsb' 16 8) (ctxOfBit (w.getLsbD 31)) o := by
  unfold decode at h
  simp only at h
  split at h
  · cases h
  · split at h
    · cases h
    · exact ⟨_, ‹_›, ‹_›, (Except.ok.inj h).symm⟩

/-- The field checks, one by one (R107, R108). -/
theorem fieldReject_none {o : Opcode} {a b : BitVec 8} {z : BitVec 7} {c : Ctx} (h : fieldReject o a b z c = none) :
    z = 0#7 ∧ o.allowsCtx c = true ∧ a &&& ~~~o.byteA = 0#8 ∧
      a &&& Machine.requiredFlags o = Machine.requiredFlags o ∧ b &&& ~~~o.byteB = 0#8 := by
  unfold fieldReject at h
  split at h; cases h
  split at h; cases h
  split at h; cases h
  split at h; cases h
  split at h; cases h
  simp_all

end Sys2Proof
end

