-- ==== Sys2Proof/Laws/Line.lean ====
section
/-! SUPPORT. What the line engine of Machine/Line.lean does, said once in the words of Safety.lean: the burst search, an
acted-on line, the count of a line and the end of a frame, and the submission attempts. -/

namespace Sys2Proof.Machine

/-- The largest burst width with a property that 1 has (R181). -/
theorem largestBurst_spec (p : Nat → Bool) (h1 : p 1 = true) :
    largestBurst p ∈ [1, 2, 4, 8, 32] ∧ p (largestBurst p) = true ∧
      ∀ b, b ∈ [1, 2, 4, 8, 32] → p b = true → b ≤ largestBurst p := by
  unfold largestBurst burstWidths
  simp only [List.find?]
  cases h32 : p 32 <;> cases h8 : p 8 <;> cases h4 : p 4 <;> cases h2 : p 2 <;> simp_all

theorem inWindow_of {s : State} (h : LineInWindow s) : inWindow s s.line.toNat = true := by
  unfold inWindow; simp [h.1, h.2]

/-- An acted-on raster line (R184). -/
theorem exec_evLineRaster (s : State) (mask) (h : LineActs s) : exec (.evLineRaster mask) s = finish (rasterLineBody mask s.port.pay s) := by
  obtain ⟨h1, h2, h3, h4⟩ := h
  simp only [exec, execEvLineRaster]
  rw [if_neg (by simp [h1, h2, h3]), if_neg (by simp [h4])]

/-- An acted-on line in the window of a frame that is not dropped (R184). -/
theorem exec_evLineRaster_in (s : State) (mask) (h : LineActs s) (hw : LineInWindow s) (hd : s.drop = false) : exec (.evLineRaster mask) s =
   finish (match copyLine (s.line.toNat - (cfgY s.cfg).toNat) s.port.pay mask { s with line := s.line + 1#32 } with
      | .ok s2 => .ok (countLine s2)
      | .error f => .error f) := by
  rw [exec_evLineRaster s mask h]
  unfold rasterLineBody
  simp only
  rw [if_pos (inWindow_of hw)]
  exact congrArg finish (if_neg (by simp [hd]))

/-- The count of an in-window line (R184, R186, R189). -/
theorem countLine_counted (u : State) (ht : u.tail.toNat < u.bufs.length) : LineCounted u (countLine u) := by
  have hb := buf_setBuf u u.tail { u.buf u.tail with woff := (u.buf u.tail).woff + 1#32 } ht
  unfold LineCounted countLine setWoff
  simp only [hb]
  refine ⟨fun h => ?_, fun h hd => ?_, fun h hd => ?_⟩
  · rw [if_neg h]; rfl
  · rw [if_pos h]
    unfold rasterFrameEnd
    simp only [setBuf_drop, hd, if_true]
    simp [clearBuf, State.setBuf, State.buf, ht]
  · rw [if_pos h]
    unfold rasterFrameEnd
    simp only [setBuf_drop, hd]
    rw [if_neg (by decide), commit_eq]
    have e : ∀ b : BitVec 3, (if u.dmaEn = true then setStored b flagInvalidate else b) ||| 4#3 = b ||| (if u.dmaEn then 6#3 else 4#3) := by
      intro b; cases u.dmaEn <;> simp [setStored, flagInvalidate, BitVec.or_assoc]
    simp [State.setBuf, State.buf, ht]
    have e2 := e ((u.buf u.tail).bflags)
    simp [State.buf, ht] at e2
    rw [e2]; rfl

/-- The attempts up to the first one not answered busy (R187). -/
theorem dmaAttempts_ok (mask : BitVec 8) (k : Nat) (hk : mask.getLsbD k = false) (fuel j : Nat) (hj : j ≤ k) (hf : k < j + fuel) (hb : ∀ i, j ≤ i → i < k → mask.getLsbD i = true) :
  dmaAttempts mask fuel j = (k - j + 1, true) := by
  induction fuel generalizing j with
  | zero => omega
  | succ n ih =>
    unfold dmaAttempts
    by_cases he : j = k
    · subst he; rw [if_pos hk]; simp
    · rw [if_neg (by rw [hb j (Nat.le_refl _) (by omega)]; decide), ih (j+1) (by omega) (by omega) (fun i h1 h2 => hb i (by omega) h2)]
      simp; omega

/-- Every attempt answered busy (R187). -/
theorem dmaAttempts_busy (mask : BitVec 8) (fuel j : Nat) (hb : ∀ i, j ≤ i → i < j + fuel → mask.getLsbD i = true) :
  dmaAttempts mask fuel j = (fuel, false) := by
  induction fuel generalizing j with
  | zero => rfl
  | succ n ih =>
    unfold dmaAttempts
    rw [if_neg (by rw [hb j (Nat.le_refl _) (by omega)]; decide), ih (j+1) (fun i h1 h2 => hb i (by omega) (by omega))]

/-- An acted-on JPEG line that holds its prefix (R190). -/
theorem exec_evLineJpeg (s : State) (mask) (h : JpegLineActs s) : exec (.evLineJpeg mask) s = finish (jpegLineBody s.port.pay s) := by
  obtain ⟨⟨h1, h2, h3, h4⟩, h5, h6⟩ := h
  simp only [exec, execEvLineJpeg]
  rw [if_neg (by simp [h1, h2, h3, h5]), if_neg (by simp [h4]), if_neg (by unfold jpegHeader; omega)]

end Sys2Proof.Machine
end

