-- ==== Sys2Proof/Laws/Packet.lean ====
section
/-! SUPPORT. What the packet engine of Machine/Packet.lean does, said once in the words of Safety.lean: the class of a
packet, hunting, validation, and a good packet up to `Advance`. -/

namespace Sys2Proof.Machine

/-- `d` is the class of the packet on the port, one that is not don't-care (R104). -/
def ClassOf (s : State) (d : Packet) : Prop :=
  (d = .special (packetPid s.port.pay) (packetWseg s.port.pay) ∧ SpecialPacket s) ∨
  (d = .plain (packetPid s.port.pay) ∧ ¬ SpecialPacket s)

/-- An acted-on packet that is not don't-care goes through steps 2 to 5 (R161). -/
theorem exec_evPkt (s : State) (h : PacketActs s) (hd : ¬ DontCarePacket s) :
    ∃ d, ClassOf s d ∧ exec .evPkt s = finish (packetSteps d s.port.pay s) := by
  obtain ⟨h1, h2, h3⟩ := h
  simp only [exec, execEvPkt]
  rw [if_neg (by simp [h1, h2]), if_neg (show ¬ s.port.pay.length ≠ packetLen s.prm from fun h => h h3)]
  unfold packetBody decodePacket
  rw [if_neg hd]
  by_cases hs : SpecialPacket s
  · refine ⟨_, .inl ⟨rfl, hs⟩, ?_⟩
    rw [if_pos hs]
  · refine ⟨_, .inr ⟨rfl, hs⟩, ?_⟩
    rw [if_neg hs]

/-- `HuntSegment` (R223). -/
theorem hunt_iff {s : State} {d : Packet}
    (hd : ClassOf s d) :
    huntSegment s d = true ↔ WaitingForSegmentZero s := by
  rcases hd with ⟨rfl, h⟩ | ⟨rfl, h⟩
  · simp only [huntSegment, WaitingForSegmentZero, SpecialPacket]
    simp only [Bool.and_eq_true, decide_eq_true_eq]
    constructor
    · rintro ⟨⟨a, b⟩, c⟩; exact ⟨h, b, c⟩
    · rintro ⟨a, b, c⟩; exact ⟨⟨h.1, b⟩, c⟩
  · simp only [huntSegment]; constructor
    · intro h; cases h
    · rintro ⟨a, _⟩; exact absurd a h

/-- `Valid` (R224). -/
theorem valid_iff {s : State} {d : Packet}
    (hd : ClassOf s d) :
    packetValid s d s.port.pay = true ↔ GoodPacket s := by
  unfold packetValid GoodPacket
  rcases hd with ⟨rfl, h⟩ | ⟨rfl, h⟩
  · simp only [segmentValid, Bool.and_eq_true, decide_eq_true_eq, Bool.or_eq_true, Bool.not_eq_true']
    simp only [Packet.pid, segBase, Nat.add_zero]
    constructor
    · rintro ⟨⟨a, b⟩, c⟩; exact ⟨a, b, fun _ => by rcases c with c | c; (rw [h.1] at c; cases c); exact c⟩
    · rintro ⟨a, b, c⟩; exact ⟨⟨a, b⟩, .inr (c h)⟩
  · simp only [segmentValid, Bool.and_eq_true, decide_eq_true_eq, Bool.or_eq_true, Bool.not_eq_true', and_true]
    simp only [Packet.pid]
    constructor
    · rintro ⟨a, b⟩; exact ⟨a, b, fun h' => absurd h' h⟩
    · rintro ⟨a, b, _⟩; exact ⟨a, b⟩

theorem pid_eq {s : State} {d : Packet}
    (hd : ClassOf s d) : d.pid = packetPid s.port.pay := by
  rcases hd with ⟨rfl, h⟩ | ⟨rfl, h⟩ <;> rfl

/-- A good packet: the first of a frame asks for a buffer, every other is placed (R161 step 5). -/
theorem exec_evPkt_good (s : State) (h : PacketActs s) (hd : ¬ DontCarePacket s) (hg : GoodPacket s) :
   exec .evPkt s = finish (if AtFrameStart s then (match frameStartBuffer s with
    | none => .ok (noBufferAbort s)
    | some s1 => acceptPacket s.expPid s.port.pay s1) else acceptPacket s.expPid s.port.pay s) := by
  obtain ⟨d, hd', he⟩ := exec_evPkt s h hd
  have hv := (valid_iff hd').2 hg
  rw [he]; unfold packetSteps; rw [pid_eq hd', hg.1]
  rw [if_neg (by rintro ⟨a, b⟩; exact b a)]
  rw [if_neg (by rw [hunt_iff hd']; rintro ⟨a, b, c⟩; have := hg.2.2 a; rw [b] at this; exact c this)]
  exact congrArg finish (if_neg (by simp [hv]))

/-- `Place` and `Advance` inside the store (R163, R164). -/
theorem accept_eq (s : State) (hi : inStore s.prm s.tail (packetOffset s) (payloadOf s).length = true) :
   acceptPacket s.expPid s.port.pay s = .ok (advancePacket { s with
     fb := Memory.setRange s.fb (fbKey s.tail.toNat (packetOffset s)) (payloadOf s),
     bufs := s.bufs.set s.tail.toNat { s.buf s.tail with woff := BitVec.ofNat 32 (packetOffset s + s.prm.pktPix * s.prm.pixBytes) } }) := by
  unfold acceptPacket place
  have := fbWrite_inStore s s.tail (packetOffset s) (payloadOf s) hi
  rw [show placeOffset s s.expPid = packetOffset s from rfl, show packetPayload s.prm s.port.pay = payloadOf s from rfl, this]
  rfl

/-- A good packet that finds its buffer: placed, then counted (R161, R163, R225). -/
theorem exec_evPkt_placed (s : State) (h : PacketActs s) (hd : ¬ DontCarePacket s) (hg : GoodPacket s) (ht : s.tail.toNat < s.bufs.length)
    (hb : AtFrameStart s → BufferAvailable s) (hi : inStore s.prm s.tail (packetOffset s) (payloadOf s).length = true) :
  exec .evPkt s = .next (advancePacket { s with
     fb := Memory.setRange s.fb (fbKey s.tail.toNat (packetOffset s)) (payloadOf s),
     bufs := s.bufs.set s.tail.toNat (placedBuf s), wrValid := (if AtFrameStart s then true else s.wrValid) }) := by
  rw [exec_evPkt_good s h hd hg]
  by_cases ha : AtFrameStart s
  · rw [if_pos ha, frameStartBuffer_available (hb ha)]
    simp only
    have := accept_eq { s with bufs := s.bufs.set s.tail.toNat ⟨.writing, 0#32, 0#3⟩, wrValid := true } hi
    simp only at this
    rw [this]
    simp only [finish]
    congr 1
    unfold placedBuf; rw [if_pos ha, if_pos ha]
    simp [State.buf, ht, packetOffset, payloadOf]
  · rw [if_neg ha, accept_eq s hi]
    unfold placedBuf; rw [if_neg ha, if_neg ha]; rfl

end Sys2Proof.Machine
end

