-- ==== Sys2Proof/Laws/PerInstr.lean ====
section
/-! SUPPORT. The family `EncodedFields`: what the word of an instruction holds in each field of R90 and R94, one lemma for
each constructor of Instr. -/

namespace Sys2Proof.Laws

/-- The word of `i` has the number of its opcode in bits 7:0, its operand bytes in bits 15:8 and 23:16, zero in bits 30:24
and its context in bit 31; and the opcode allows that context (R93 to R95). -/
def EncodedFields.Statement (i : Instr) : Prop :=
  (encode i).extractLsb' 0 8 = i.opcode.code ∧ (encode i).extractLsb' 8 8 = i.fieldA ∧
  (encode i).extractLsb' 16 8 = i.fieldB ∧ (encode i).extractLsb' 24 7 = 0#7 ∧
  (encode i).getLsbD 31 = i.ctx.bit ∧ i.opcode.allowsCtx i.ctx = true

theorem EncodedFields.of_allowed (i : Instr) (h : i.opcode.allowsCtx i.ctx = true) : EncodedFields.Statement i :=
  have f := wordOf_fields i.ctx.bit i.fieldB i.fieldA i.opcode.code
  ⟨f.1, f.2.1, f.2.2.1, f.2.2.2.1, f.2.2.2.2, h⟩

theorem EncodedFields.setupBuffers : EncodedFields.Statement .setupBuffers := of_allowed _ rfl
theorem EncodedFields.acquire (flags : BitVec 8) : EncodedFields.Statement (.acquire flags) := of_allowed _ rfl
theorem EncodedFields.release (flags : BitVec 8) : EncodedFields.Statement (.release flags) := of_allowed _ rfl
theorem EncodedFields.getHead (flags : BitVec 8) : EncodedFields.Statement (.getHead flags) := of_allowed _ rfl
theorem EncodedFields.getTail (flags : BitVec 8) : EncodedFields.Statement (.getTail flags) := of_allowed _ rfl
theorem EncodedFields.resetBuf (idx : BitVec 8) : EncodedFields.Statement (.resetBuf idx) := of_allowed _ rfl
theorem EncodedFields.readable (ctx : Ctx) : EncodedFields.Statement (.readable ctx) := of_allowed _ rfl
theorem EncodedFields.freeCurrent : EncodedFields.Statement .freeCurrent := of_allowed _ rfl
theorem EncodedFields.init : EncodedFields.Statement .init := of_allowed _ rfl
theorem EncodedFields.deinit : EncodedFields.Statement .deinit := of_allowed _ rfl
theorem EncodedFields.abort : EncodedFields.Statement .abort := of_allowed _ rfl
theorem EncodedFields.active (ctx : Ctx) : EncodedFields.Statement (.active ctx) := of_allowed _ rfl
theorem EncodedFields.snapshot (flags : BitVec 8) : EncodedFields.Statement (.snapshot flags) := of_allowed _ rfl
theorem EncodedFields.evPkt : EncodedFields.Statement .evPkt := of_allowed _ rfl
theorem EncodedFields.evSof (throttleDrop : Bool) : EncodedFields.Statement (.evSof throttleDrop) := of_allowed _ rfl
theorem EncodedFields.evLineRaster (busyMask : BitVec 8) : EncodedFields.Statement (.evLineRaster busyMask) :=
  of_allowed _ rfl
theorem EncodedFields.evLineJpeg (busyMask : BitVec 8) : EncodedFields.Statement (.evLineJpeg busyMask) :=
  of_allowed _ rfl
theorem EncodedFields.evDmaDone (ch : BitVec 8) : EncodedFields.Statement (.evDmaDone ch) := of_allowed _ rfl
theorem EncodedFields.evPoll : EncodedFields.Statement .evPoll := of_allowed _ rfl

end Sys2Proof.Laws
end

