-- ==== Sys2Proof/Machine/Text.lean ====
section
/-! DEFINITION. The textual form of an input in traces (30_encoding R110): one line `@<NOW> MNEMONIC FLAG|FLAG name=value`.
The source has no assembler; this is the spec's own way to write traces, and nothing in the machine depends on it. -/

namespace Sys2Proof.Machine

/-- The mnemonics of R93 and R95. -/
def mnemonic : Opcode → String
  | .setupBuffers => "SETUP_BUFFERS"
  | .acquire => "ACQUIRE"
  | .release => "RELEASE"
  | .getHead => "GET_HEAD"
  | .getTail => "GET_TAIL"
  | .resetBuf => "RESET_BUF"
  | .readable => "READABLE"
  | .freeCurrent => "FREE_CURRENT"
  | .init => "INIT"
  | .deinit => "DEINIT"
  | .abort => "ABORT"
  | .active => "ACTIVE"
  | .snapshot => "SNAPSHOT"
  | .evPkt => "EV_PKT"
  | .evSof => "EV_SOF"
  | .evLine => "EV_LINE"
  | .evDmaDone => "EV_DMA_DONE"
  | .evPoll => "EV_POLL"

/-- The flag names of R92, bit 0 first. -/
def flagTable : List (BitVec 8 × String) :=
  [(flagOverflow, "OVERFLOW"), (flagInvalidate, "INVALIDATE"), (flagCheckLast, "CHECK_LAST"), (flagFree, "FREE"),
   (flagPeek, "PEEK"), (flagNonblock, "NONBLOCK")]

/-- The names of the set flags, joined by `|` (R110). -/
def flagText (flags : BitVec 8) : String :=
  String.intercalate "|" ((flagTable.filter fun r => hasFlag flags r.1).map fun r => r.2)

/-- A byte as two hex digits. -/
def hexByte (b : Byte) : String := b.toHex

/-- A mask in binary, attempt 0 rightmost (R110). -/
def maskText (m : BitVec 8) : String :=
  String.join ((List.range 8).map fun k => if m.getLsbD (7 - k) then "1" else "0")

/-- The named operands of an instruction with its input (R110). The configuration of `INIT` is named beside the trace. -/
def operandText (x : Input) : Instr → String
  | .acquire f | .release f | .getHead f | .getTail f => if f = 0#8 then "" else " " ++ flagText f
  | .resetBuf idx => " idx=" ++ toString idx.toNat
  | .snapshot f => (if f = 0#8 then "" else " " ++ flagText f) ++ " timeout=" ++ toString x.opw.toNat
  | .evPkt => " pay=" ++ String.join (x.pay.map hexByte)
  | .evSof d => " drop=" ++ (if d then "1" else "0")
  | .evLineRaster m | .evLineJpeg m => " busy=" ++ maskText m ++ " pay=" ++ String.join (x.pay.map hexByte)
  | .evDmaDone ch => " ch=" ++ toString ch.toNat
  | .setupBuffers | .readable _ | .freeCurrent | .init | .deinit | .abort | .active _ | .evPoll => ""

/-- One line of a trace (R110). -/
def traceLine (x : Input) (i : Instr) : String :=
  "@" ++ toString x.now.toNat ++ " " ++ mnemonic i.opcode ++ operandText x i

end Sys2Proof.Machine
end

