-- ==== Sys2Proof/Tests/Slice0.lean ====
section
/-! SUPPORT. Tests of the model: ill-formed instructions refused, one word per constructor decoded as 30_encoding writes it,
illegal words refused by name, one step of each instruction with the results of 95_test_vectors, and for each statement
with hypotheses a state that meets them. -/

namespace Sys2Proof.Tests

open Sys2Proof Sys2Proof.Machine

/-! ## Helpers -/

/-- The parameters of the vector groups V1, V2, V4 and V5 together (95_test_vectors). -/
def prmA : Params where
  nmax := 4
  cap := 16
  pktPix := 2
  pixBytes := 2
  segPkts := 3
  specialPid := 1
  dcMask := 0x0F00#16
  dcMatch := 0x0F00#16
  resync := 185
  nch := 2
  dmaRetry := 3
  minDmaStride := 2
  dmaLenAlign := 4
  linebufCap := 64
  bppGray := 1
  bppRgb := 2
  bppYuv := 2
  bppBayer := 1

/-- A configuration record from its fields (R100), with `transpose`, `crc_en`, `subformat` 0. -/
def mkCfg (engine pixformat cb n x y u v lineBytes ppf cbArg : Nat) : BitVec 160 :=
  BitVec.ofNat 160
    (engine + pixformat * 2 ^ 2 + cb * 2 ^ 7 + n * 2 ^ 16 + x * 2 ^ 32 + y * 2 ^ 48 + u * 2 ^ 64 + v * 2 ^ 80 +
      lineBytes * 2 ^ 96 + ppf * 2 ^ 112 + cbArg * 2 ^ 128)

/-- V2: engine NONE, grayscale, three buffers of 4 by 2, callback `0x11223344`. -/
def cfgNone : BitVec 160 := mkCfg 0 1 1 3 0 0 4 2 0 0 0x11223344
/-- V4.2: engine SERIAL, one segment of three packets, two buffers. -/
def cfgSer : BitVec 160 := mkCfg 1 1 0 2 0 0 6 1 0 3 0
/-- V4.3: engine SERIAL, four segments. -/
def cfgMulti : BitVec 160 := mkCfg 1 1 0 2 0 0 6 1 0 12 0
/-- V5.2: engine RASTER, grayscale, a 2 by 2 window at (1, 0) of lines of 4 bytes, two buffers. -/
def cfgRas : BitVec 160 := mkCfg 2 1 0 2 1 0 2 2 4 0 0
/-- V6: engine RASTER, JPEG, lines of 8 bytes, two buffers. -/
def cfgJpg : BitVec 160 := mkCfg 2 5 0 2 0 0 320 240 8 0 0

/-- An initialised block. -/
def up (p : Params) (c : BitVec 160) : State :=
  { State.powerOn p with initialised := true, cfg := c, multi := configMulti p c }

/-- An input with a word, a tick, an operand word and a payload. -/
def inp (w : Nat) (now : Nat := 0) (opw : Nat := 0) (pay : List Nat := []) : Input :=
  { w := BitVec.ofNat 32 w, opw := BitVec.ofNat 32 opw, now := BitVec.ofNat 32 now,
    pay := pay.map (BitVec.ofNat 8), cfgPort := 0#160 }

/-- `s` with a payload on the port. -/
def withPay (s : State) (pay : List Nat) : State := { s with port := inp 0 0 0 pay }

/-- `s` with descriptor `i` in a state, with a cursor and flags. -/
def withBuf (s : State) (i : Nat) (st : BufState) (woff : Nat := 0) (bflags : Nat := 0) : State :=
  { s with bufs := s.bufs.set i ⟨st, BitVec.ofNat 32 woff, BitVec.ofNat 3 bflags⟩ }

/-- The next state of an outcome, if there is one. -/
def nextOf (o : Host.Outcome State Fault Refusal) : Option State :=
  match o with
  | .next s => some s
  | .fault _ => none
  | .refused _ => none

/-- The response word of the next state. -/
def rspOf (o : Host.Outcome State Fault Refusal) : Option Word :=
  (nextOf o).bind fun s => s.out.rsp.map fun r => r.rsp

/-- The buffer states of the next state. -/
def stOf (o : Host.Outcome State Fault Refusal) : Option (List BufState) :=
  (nextOf o).map fun s => s.bufs.map fun b => b.st

/-- The effects of the next state. -/
def effOf (o : Host.Outcome State Fault Refusal) : Option (List Effect) := (nextOf o).map fun s => s.out.eff

/-- A written byte of the next state. -/
def byteOf (o : Host.Outcome State Fault Refusal) (i off : Nat) : Option Byte :=
  (nextOf o).bind fun s => Memory.get? s.fb (fbKey i off)

/-- The step of one input from a state. -/
def stepOn (s : State) (x : Input) : Host.Outcome State Fault Refusal := step { s with inputs := [x] }

/-! ### States -/

/-- Engine NONE, `[F,F,F]`. -/
def sNone : State := up prmA cfgNone
/-- V2 after row 3: `[W,F,F]`, token valid. -/
def sNoneW : State := { withBuf sNone 0 .writing with wrValid := true }
/-- V2 after row 7: `[R,F,F]`, `tail = 1`. -/
def sNoneR : State := { withBuf sNone 0 .readable with tail := 1#8 }
/-- `[H,F,F]`, `tail = 1`. -/
def sNoneH : State := { withBuf sNone 0 .held with tail := 1#8 }
/-- A serial session, armed, nothing received. -/
def sSer : State := { up prmA cfgSer with active := true }
/-- A serial session in the middle of a frame: packet 1 of 3 expected. -/
def sSerMid : State := { withBuf sSer 0 .writing 4 with wrValid := true, expPid := 1#12 }
/-- A serial session of an extended sensor in the middle of a frame: the special packet expected, segment 0. -/
def sMulti : State :=
  { withBuf (up { prmA with cap := 48 } cfgMulti) 0 .writing 4 with active := true, wrValid := true, expPid := 1#12 }
/-- V5.2 armed. -/
def sRas : State :=
  { up prmA cfgRas with
    active := true, dstStride := 2#32, srcOff := 1#32, dstBurst := 2#6, srcBurst := 1#6, dmaEn := true }
/-- V5.2 after row 1: in a frame. -/
def sRasLine : State := { withBuf sRas 0 .writing with wrValid := true, inFrame := true }
/-- The same without DMA. -/
def sRasCopy : State := { sRasLine with prm := { prmA with minDmaStride := 100 }, dmaEn := false }
/-- V6 after `SOF`: a JPEG frame of buffers of 8 bytes. -/
def sJpg : State :=
  { withBuf (up { prmA with cap := 8 } cfgJpg) 0 .writing with
    active := true, wrValid := true, inFrame := true, reqEn := true }
/-- A snapshot waiting since tick 100 with timeout 50 (V1 row 26). -/
def sWait : State := { up prmA cfgNone with active := true, snap := .wait, tStart := 100#32, timeout := 50#32 }
/-- A serial snapshot in its resync delay since tick 20. -/
def sDelay : State := { up prmA cfgSer with resyncPending := true, snap := .delay, tRs := 20#32, timeout := 50#32 }

/-! ## Ill-formed instructions (R93, R107) -/

theorem test_wf_acquire_needs_free : (Instr.acquire 0x10#8).wellFormed = false := by decide
theorem test_wf_acquire_other_flag : (Instr.acquire 0x0C#8).wellFormed = false := by decide
theorem test_wf_release_other_flag : (Instr.release 0x08#8).wellFormed = false := by decide
theorem test_wf_get_head_other_flag : (Instr.getHead 0x08#8).wellFormed = false := by decide
theorem test_wf_get_tail_needs_peek : (Instr.getTail 0x00#8).wellFormed = false := by decide
theorem test_wf_get_tail_other_flag : (Instr.getTail 0x30#8).wellFormed = false := by decide
theorem test_wf_snapshot_other_flag : (Instr.snapshot 0x60#8).wellFormed = false := by decide

/-- An ill-formed instruction is answered `IllegalOp` as its word would be (log 11). -/
theorem test_ill_formed_answered : rspOf (exec (.getTail 0x00#8) sNone) = some 0x0000FF10#32 := by decide

/-! ## Decoding: words written out from R93 to R95 (`ctx || zero || b || a || op`) -/

theorem test_decode_setup_buffers : decode false 0b00000000000000000000000000000001#32 = .ok .setupBuffers := by decide
theorem test_decode_acquire : decode false 0b10000000000000000001100000000010#32 = .ok (.acquire 0x18#8) := by decide
theorem test_decode_release : decode false 0b10000000000000000000010000000011#32 = .ok (.release 0x04#8) := by decide
theorem test_decode_get_head : decode false 0b00000000000000000001000000000100#32 = .ok (.getHead 0x10#8) := by decide
theorem test_decode_get_tail : decode false 0b00000000000000000001000000000101#32 = .ok (.getTail 0x10#8) := by decide
theorem test_decode_reset_buf : decode false 0b10000000000001010000000000000110#32 = .ok (.resetBuf 5#8) := by decide
theorem test_decode_readable_interrupt :
    decode false 0b10000000000000000000000000000111#32 = .ok (.readable .interrupt) := by decide
theorem test_decode_free_current : decode false 0b00000000000000000000000000001000#32 = .ok .freeCurrent := by decide
theorem test_decode_init : decode false 0b00000000000000000000000000010000#32 = .ok .init := by decide
theorem test_decode_deinit : decode false 0b00000000000000000000000000010001#32 = .ok .deinit := by decide
theorem test_decode_abort : decode false 0b00000000000000000000000000010010#32 = .ok .abort := by decide
theorem test_decode_active_thread :
    decode false 0b00000000000000000000000000010011#32 = .ok (.active .thread) := by decide
theorem test_decode_snapshot : decode false 0b00000000000000000010000000010100#32 = .ok (.snapshot 0x20#8) := by decide
theorem test_decode_ev_pkt : decode false 0b10000000000000000000000010000000#32 = .ok .evPkt := by decide
theorem test_decode_ev_sof : decode false 0b10000000000000000000000110000001#32 = .ok (.evSof true) := by decide
theorem test_decode_ev_line_raster :
    decode false 0b10000000000001110000000010000010#32 = .ok (.evLineRaster 0b111#8) := by decide
theorem test_decode_ev_line_jpeg :
    decode true 0b10000000000001110000000010000010#32 = .ok (.evLineJpeg 0b111#8) := by decide
theorem test_decode_ev_dma_done : decode false 0b10000000000000000000000110000011#32 = .ok (.evDmaDone 1#8) := by decide
theorem test_decode_ev_poll : decode false 0b00000000000000000000000010000100#32 = .ok .evPoll := by decide

theorem test_reject_reserved_command : decode false 0x00000009#32 = .error .reservedCommand := by decide
theorem test_reject_reserved_event : decode false 0x80000085#32 = .error .reservedEvent := by decide
theorem test_reject_zero_field : decode false 0x01000001#32 = .error .zeroField := by decide
theorem test_reject_context : decode false 0x00000802#32 = .error .wrongContext := by decide
theorem test_reject_flag : decode false 0x80000803#32 = .error .flagNotAccepted := by decide
theorem test_reject_flag_missing : decode false 0x00000005#32 = .error .flagMissing := by decide
theorem test_reject_operand : decode false 0x00010001#32 = .error .operandNotZero := by decide

theorem test_table_word : decodeTableWord 32 0x80001802 = some (.acquire 0x18#8) := by decide
theorem test_fetch_word_runs :
    rspOf (step (sNone.withFetchWord 32 0x00001005)) = some 0x00000000#32 := by decide

/-! ## One step of each instruction -/

/-- V2 row 23. -/
theorem test_setup_buffers : stOf (exec .setupBuffers sNoneH) = some [.free, .free, .free, .free] := by decide
/-- V1, text after the table. -/
theorem test_setup_buffers_active :
    rspOf (exec .setupBuffers { sNone with active := true }) = some 0x0000FF10#32 := by decide
/-- V2 rows 3 and 4. -/
theorem test_acquire : rspOf (exec (.acquire 0x08#8) sNone) = some 0x01000000#32 := by decide
theorem test_acquire_none_free : rspOf (exec (.acquire 0x08#8) sNoneW) = some 0x0000FF07#32 := by decide
/-- V2 rows 7 and 12. -/
theorem test_release : effOf (exec (.release 0x00#8) sNoneW) = some [.callback 0x11223344#32] := by decide
theorem test_release_checked_invalid :
    rspOf (exec (.release 0x04#8) { sNoneW with wrValid := false }) = some 0x01000000#32 := by decide
/-- V2 rows 14 and 9. -/
theorem test_get_head : rspOf (exec (.getHead 0x00#8) sNoneR) = some 0x03000000#32 := by decide
theorem test_get_head_peek :
    stOf (exec (.getHead 0x10#8) sNoneR) = some [.readable, .free, .free, .free] := by decide
/-- V2 row 5. -/
theorem test_get_tail : rspOf (exec (.getTail 0x10#8) sNoneW) = some 0x01000000#32 := by decide
/-- V2 row 6 and V1 row 21. -/
theorem test_reset_buf : rspOf (exec (.resetBuf 0#8) sNoneW) = some 0x01000000#32 := by decide
theorem test_reset_buf_outside : rspOf (exec (.resetBuf 3#8) sNoneW) = some 0x0000FF10#32 := by decide
/-- V2 rows 1 and 8. -/
theorem test_readable_none : rspOf (exec (.readable .thread) sNone) = some 0x0000FF00#32 := by decide
theorem test_readable_some : rspOf (exec (.readable .interrupt) sNoneR) = some 0x0400FF00#32 := by decide
/-- V2 row 16. -/
theorem test_free_current : rspOf (exec .freeCurrent sNoneH) = some 0x04000000#32 := by decide
/-- V1 rows 9 and 6. -/
theorem test_init :
    effOf (exec .init { State.powerOn prmA with port := { Input.zero with cfgPort := cfgSer } }) =
      some [.xferConfigure] := by decide
theorem test_init_no_buffers :
    rspOf (exec .init { State.powerOn prmA with port := { Input.zero with cfgPort := mkCfg 0 1 0 0 0 0 4 2 0 0 0 } }) =
      some 0x0000FF13#32 := by decide
/-- V1, text after the table. -/
theorem test_deinit : (nextOf (exec .deinit sSer)).map (fun s => s.initialised) = some false := by decide
/-- V5.2 row 11. -/
theorem test_abort :
    effOf (exec .abort sRasLine) = some [.hwDisable, .dmaIrqDisable 0, .dmaIrqDisable 1] := by decide
/-- V1 row 28. -/
theorem test_active : rspOf (exec (.active .thread) sWait) = some 0x0400FF00#32 := by decide
/-- V7.4 and V1 row 26. -/
theorem test_snapshot_nonblock : rspOf (exec (.snapshot 0x20#8) (up prmA cfgSer)) = some 0x0000FF01#32 := by decide
theorem test_snapshot_blocking :
    effOf (exec (.snapshot 0x00#8) { sNone with port := inp 0x14 100 50 }) = some [.yield] := by decide
/-- Program P2: packet 1 is placed at byte 4; V4.3 row 11: a wrong segment loses sync. -/
theorem test_ev_pkt_placed :
    byteOf (exec .evPkt (withPay sSerMid [0, 1, 0, 0, 0xB0, 0xB1, 0xB2, 0xB3])) 0 5 = some 0xB1#8 := by decide
theorem test_ev_pkt_sync_lost :
    (nextOf (exec .evPkt (withPay sSerMid [0, 2, 0, 0, 0, 0, 0, 0]))).map (fun s => s.out.tr) = some [.syncLost] := by
  decide
/-- V5.2 row 1 and V6.5. -/
theorem test_ev_sof : stOf (exec (.evSof false) sRas) = some [.writing, .free, .free, .free] := by decide
theorem test_ev_sof_jpeg_dropped :
    (nextOf (exec (.evSof true) { sJpg with inFrame := false, reqEn := false })).map (fun s => (s.inFrame, s.reqEn)) =
      some (false, false) := by decide
/-- V5.2 rows 6 and 2. -/
theorem test_ev_line_raster_dma :
    (nextOf (exec (.evLineRaster 0b000#8) (withPay sRasLine [0x50, 0x51, 0x52, 0x53]))).map (fun s => s.pending) =
      some [some ⟨0#8, 0, [0x51#8, 0x52#8]⟩, none] := by decide
theorem test_ev_line_raster_busy :
    (nextOf (exec (.evLineRaster 0b111#8) (withPay sRasLine [0x40, 0x41, 0x42, 0x43]))).map
      (fun s => (s.drop, s.rr, s.line)) = some (true, 1#8, 1#32) := by decide
/-- V6.3 and V6.2 row 2. -/
theorem test_ev_line_jpeg_marker :
    stOf (exec (.evLineJpeg 0#8) (withPay sJpg [0, 6, 0xFF, 0xD8, 0xFF, 0xD9, 0x77, 0x88])) =
      some [.readable, .free, .free, .free] := by decide
theorem test_ev_line_jpeg_appended :
    byteOf (exec (.evLineJpeg 0#8) (withPay sJpg [0, 6, 1, 2, 3, 4, 5, 0xFF])) 0 5 = some 0xFF#8 := by decide
/-- Program P3: the transfer on handle 1 lands in its buffer. -/
theorem test_ev_dma_done :
    byteOf (exec (.evDmaDone 1#8) { sRas with pending := [none, some ⟨0#8, 2, [0x61#8, 0x62#8]⟩] }) 0 3 =
      some 0x62#8 := by decide
/-- V1 rows 30 and 31. -/
theorem test_ev_poll_yields : effOf (exec .evPoll { sWait with port := inp 0x84 149 }) = some [.yield] := by decide
theorem test_ev_poll_timeout :
    rspOf (exec .evPoll { sWait with port := inp 0x84 150 }) = some 0x0000FF02#32 := by decide

/-- V3: the source's example and the rows where 16 is excluded. -/
theorem test_bursts :
    [(640, 3), (48, 4), (16, 16), (96, 16), (24, 12)].map (fun r => (dstBurstOf r.1, srcBurstOf (dstBurstOf r.1) r.2)) =
      [(32, 1), (8, 4), (8, 8), (32, 8), (8, 4)] := by decide

/-! ## Witnesses: for each statement with hypotheses, states and operands that meet them, each clause for itself -/

/-- What `decide` shows of the next state, as the statement "there is a next state". -/
theorem exists_next {α : Type} {o : Host.Outcome State Fault Refusal} {f : State → α} {v : α}
    (h : (nextOf o).map f = some v) : ∃ t, o = .next t ∧ f t = v := by
  cases o with
  | next t => exact ⟨t, rfl, Option.some.inj h⟩
  | fault e => cases h
  | refused e => cases h

theorem witness_DecodeOfEncode :
    ((Instr.acquire 0x18#8).wellFormed = true ∧ ∀ m, Instr.acquire 0x18#8 = .evLineRaster m → false = false) ∧
    ((Instr.evLineRaster 0xFF#8).wellFormed = true ∧ ∀ m, Instr.evLineRaster 0xFF#8 = .evLineJpeg m → false = true) ∧
    ((Instr.evLineJpeg 0xFF#8).wellFormed = true ∧ ∀ m, Instr.evLineJpeg 0xFF#8 = .evLineRaster m → true = false) :=
  ⟨⟨by decide, fun _ _ => rfl⟩, ⟨by decide, fun _ h => (nomatch h)⟩, ⟨by decide, fun _ h => (nomatch h)⟩⟩

theorem witness_EncodeOfDecode : decode true 0x80FF0082#32 = .ok (.evLineJpeg 0xFF#8) := by decide

/-- The command words of the next theorem are answered `IllegalOp`. -/
theorem test_illegal_words_answered :
    ∀ w ∈ [0x0F, 0x15, 0x7F, 0x01000001, 0x40000001, 0x80000001, 0x00000802, 0x80000C02, 0x80000803, 0x3005, 0x6014,
        0x101, 0x80000002, 0x05, 0x10001, 0x80000085, 0x800000FF, 0xC0000080, 0x80, 0x80000084, 0x80000281, 0x80000180,
        0x80010083],
      rspOf (stepOn sNone (inp w)) = some 0x0000FF10#32 := by decide

/-- One word for each clause of the statement, in its order. -/
theorem witness_IllegalCommandWordsAnswered :
    tickOk sNone.lastNow (inp 0x7F).now = true ∧
    (∀ w ∈ [0x7F, 0x40000001, 0x80000001, 0x00000802, 0x80000C02, 0x80000803, 0x00003005, 0x00006014, 0x00000101,
      0x80001002, 0x00000005, 0x00010001], (BitVec.ofNat 32 w).getLsbD 7 = false) ∧
    0x7F#8 ∉ [0x01#8, 0x02#8, 0x03#8, 0x04#8, 0x05#8, 0x06#8, 0x07#8, 0x08#8, 0x10#8, 0x11#8, 0x12#8, 0x13#8, 0x14#8] ∧
    (0x40000001#32).extractLsb' 24 7 ≠ 0#7 ∧
    (0x80000001#32).getLsbD 31 = true ∧
    ((0x00000802#32).extractLsb' 0 8 = 0x02#8 ∧ (0x00000802#32).getLsbD 31 = false) ∧
    (0x80000C02#32).extractLsb' 8 8 &&& 0xE7#8 ≠ 0#8 ∧
    (0x80000803#32).extractLsb' 8 8 &&& 0xFB#8 ≠ 0#8 ∧
    (0x00003005#32).extractLsb' 8 8 &&& 0xEF#8 ≠ 0#8 ∧
    (0x00006014#32).extractLsb' 8 8 &&& 0xDF#8 ≠ 0#8 ∧
    (0x00000101#32).extractLsb' 8 8 ≠ 0#8 ∧
    (0x80001002#32).extractLsb' 8 8 &&& 0x08#8 = 0#8 ∧
    (0x00000005#32).extractLsb' 8 8 &&& 0x10#8 = 0#8 ∧
    (0x00010001#32).extractLsb' 16 8 ≠ 0#8 := by decide

/-- One word for each clause of the statement, in its order. -/
theorem witness_ReservedEventWordsAnswered :
    tickOk sNone.lastNow (inp 0x80000085).now = true ∧
    (∀ w ∈ [0x80000085, 0xC0000080, 0x00000083, 0x80000084, 0x80000281, 0x80000182, 0x80010083],
      (BitVec.ofNat 32 w).getLsbD 7 = true) ∧
    0x85#8 ∉ [0x80#8, 0x81#8, 0x82#8, 0x83#8, 0x84#8] ∧
    (0xC0000080#32).extractLsb' 24 7 ≠ 0#7 ∧
    (0x00000083#32).getLsbD 31 = false ∧
    ((0x80000084#32).extractLsb' 0 8 = 0x84#8 ∧ (0x80000084#32).getLsbD 31 = true) ∧
    (0x80000281#32).extractLsb' 8 8 &&& 0xFE#8 ≠ 0#8 ∧
    ((0x80000182#32).extractLsb' 0 8 ∉ [0x81#8, 0x83#8] ∧ (0x80000182#32).extractLsb' 8 8 ≠ 0#8) ∧
    (0x80010083#32).extractLsb' 16 8 ≠ 0#8 := by decide

theorem witness_StepRunsDecoded :
    (tickOk (some 0xFFFFFFFF#32) 0x7FFFFFFE#32 = true ∧
      decode (decide (cfgPixFmt sNone.cfg = .jpeg)) 0x00000008#32 = .ok .freeCurrent) ∧
    2 ^ 31 ≤ (0x7FFFFFFF#32 - 0xFFFFFFFF#32).toNat := by decide

theorem witness_PowerOnReset :
    Instr.evPkt.wellFormed = true ∧ Instr.evPkt.opcode.code.getLsbD 7 = true ∧
    (Instr.acquire 0x08#8).wellFormed = true ∧ (Instr.acquire 0x08#8).opcode.code.getLsbD 7 = false ∧
    (Instr.acquire 0x08#8).opcode ∉ [.init, .active, .readable] := by decide

theorem witness_NotInitialised :
    SessionInv (State.powerOn prmA) ∧ QuietInv (State.powerOn prmA) ∧ (State.powerOn prmA).initialised = false := by
  unfold SessionInv QuietInv
  decide

theorem witness_AdmissionOrder :
    tickOk sNone.lastNow (inp 0).now = true ∧
    (decode (jpegMode sNone) 0x00000000#32).toOption = none ∧
    (decode (jpegMode (State.powerOn prmA)) 0x00000001#32 = .ok .setupBuffers ∧
      (State.powerOn prmA).initialised = false) ∧
    (decode (jpegMode sWait) 0x00000010#32 = .ok .init ∧ sWait.initialised = true ∧ sWait.snap ≠ .idle) ∧
    (decode (jpegMode sSer) 0x80000802#32 = .ok (.acquire 0x08#8) ∧ sSer.initialised = true ∧
      cfgEngine sSer.cfg ≠ .none) := by decide

theorem witness_SetupBuffersResetsPool :
    (ThreadReady sNoneH ∧ (cfgNBuffers sNoneH.cfg).toNat ≤ sNoneH.bufs.length ∧ sNoneH.active = false) ∧
    (ThreadReady sSer ∧ (cfgNBuffers sSer.cfg).toNat ≤ sSer.bufs.length ∧ sSer.active = true) := by decide

theorem witness_AcquireTakesTail :
    (ProducerReady sNone ∧ sNone.tail.toNat < sNone.bufs.length ∧ (sNone.buf sNone.tail).st = .free) ∧
    (ProducerReady sNoneW ∧ sNoneW.tail.toNat < sNoneW.bufs.length ∧ (sNoneW.buf sNoneW.tail).st ≠ .free) := by decide

theorem witness_ReleaseCommits :
    (ProducerReady sNone ∧ (sNone.buf sNone.tail).st ≠ .writing) ∧
    (ProducerReady { sNoneW with wrValid := false } ∧ (sNoneW.buf sNoneW.tail).st = .writing) ∧
    (ProducerReady sNoneW ∧ sNoneW.wrValid = true) := by decide

theorem witness_GetHeadTakesOldest :
    (ThreadReady sNoneR ∧ (sNoneR.buf sNoneR.head).st = .readable) ∧
    (ThreadReady sNoneH ∧ (sNoneH.buf sNoneH.head).st ≠ .readable) := by decide

theorem witness_GetTailReports : ThreadReady sNoneW := by decide

theorem witness_ResetBufClearsWriting :
    (ProducerReady (withBuf sNone 2 .writing) ∧ (2#8).toNat < (cfgNBuffers sNone.cfg).toNat ∧
      ((withBuf sNone 2 .writing).buf 2#8).st = .writing) ∧
    (ProducerReady sNone ∧ (cfgNBuffers sNone.cfg).toNat ≤ (3#8).toNat) ∧ (sNone.buf 2#8).st ≠ .writing := by decide

/-- A READABLE descriptor at the last index below `N` counts, one at `N` does not. -/
theorem witness_ReadableIsPredicate :
    (∃ i, i < (cfgNBuffers sNone.cfg).toNat ∧ ((withBuf sNone 2 .readable).buf (BitVec.ofNat 8 i)).st = .readable) ∧
    ¬ ∃ i, i < (cfgNBuffers sNone.cfg).toNat ∧ ((withBuf sNone 3 .readable).buf (BitVec.ofNat 8 i)).st = .readable := by
  decide

theorem witness_FreeCurrentFrees :
    (ThreadReady sNoneH ∧ (sNoneH.buf sNoneH.head).st = .held) ∧
    (ThreadReady sNoneR ∧ (sNoneR.buf sNoneR.head).st ≠ .held) := by decide

/-- One record for each disjunct of `IllegalConfig`, in its order. -/
theorem witness_InitRefusesIllegalConfig :
    sNone.snap = .idle ∧
    IllegalConfig prmA (mkCfg 3 1 0 1 0 0 4 2 0 0 0) ∧ IllegalConfig prmA (mkCfg 0 0 0 1 0 0 4 2 0 0 0) ∧
    IllegalConfig prmA (mkCfg 0 6 0 1 0 0 4 2 0 0 0) ∧ IllegalConfig prmA (mkCfg 0 7 0 1 0 0 4 2 0 0 0) ∧
    IllegalConfig prmA (mkCfg 0 1 0 0 0 0 4 2 0 0 0) ∧ IllegalConfig prmA (mkCfg 0 1 0 5 0 0 4 2 0 0 0) ∧
    IllegalConfig prmA (mkCfg 0 1 0 (1 + 2 ^ 8) 0 0 4 2 0 0 0) ∧ IllegalConfig prmA (mkCfg 1 1 0 1 0 0 4 2 0 5 0) ∧
    IllegalConfig prmA (mkCfg 1 5 0 1 0 0 4 2 0 3 0) := by
  unfold IllegalConfig
  refine ⟨by decide, ?_, ?_, ?_, ?_, ?_, ?_, ?_, ?_, ?_⟩ <;> decide

theorem witness_InitLatchesConfig :
    (sSer.snap = .idle ∧ sSer.active = true) ∧ (sNone.snap = .idle ∧ sNone.active = false) ∧
    ¬ IllegalConfig prmA cfgNone ∧ ¬ IllegalConfig prmA cfgSer ∧ ¬ IllegalConfig prmA cfgMulti ∧
    ¬ IllegalConfig prmA cfgRas ∧ ¬ IllegalConfig prmA cfgJpg ∧
    ¬ IllegalConfig prmA (mkCfg 0 4 0 4 0 0 4 2 0 0 0) := by
  unfold IllegalConfig
  refine ⟨by decide, by decide, ?_, ?_, ?_, ?_, ?_, ?_⟩ <;> decide

theorem witness_DeinitTearsDown :
    (ThreadReady sRasLine ∧ sRasLine.active = true) ∧ (ThreadReady sNone ∧ sNone.active = false) := by decide

theorem witness_AbortIsIdempotent : ThreadReady sRasLine ∧ ThreadReady sNone := by decide

theorem witness_SnapshotReturnsHeld :
    (ThreadReady sNoneH ∧ (sNoneH.buf sNoneH.head).st = .held ∧ (sNoneH.buf (after sNoneH sNoneH.head)).st ≠ .held) ∧
    (let s := withBuf (up prmA (mkCfg 0 1 0 1 0 0 4 2 0 0 0)) 0 .held
     ThreadReady s ∧ (s.buf s.head).st = .held ∧ after s s.head = s.head) := by decide

theorem witness_SnapshotWhileActive :
    ThreadReady sSer ∧ sSer.active = true ∧ (sSer.buf sSer.head).st ≠ .held := by decide

/-- One state for each engine, and one for JPEG. -/
theorem witness_SnapshotArms :
    ∀ s ∈ [sNone, up prmA cfgSer, { up prmA cfgRas with resyncPending := true }, up prmA cfgJpg],
      ThreadReady s ∧ s.active = false ∧ (s.buf s.head).st ≠ .held ∧ 0 < (cfgNBuffers s.cfg).toNat ∧
      (cfgNBuffers s.cfg).toNat ≤ s.bufs.length ∧ GeometryOk s ∧
      ¬ (cfgEngine s.cfg = .serial ∧ s.resyncPending = true) := by
  unfold GeometryOk
  decide

/-- V7.5: 20 bytes and 17 bytes in buffers of 16. -/
theorem witness_SnapshotInvalidGeometry :
    ∀ s ∈ [up prmA (mkCfg 0 1 0 2 0 0 5 4 0 0 0), up prmA (mkCfg 2 1 0 2 0 0 17 1 20 0 0), up prmA cfgMulti],
      ThreadReady s ∧ s.active = false ∧ (s.buf s.head).st ≠ .held ∧
      (cfgNBuffers s.cfg).toNat ≤ s.bufs.length ∧ ¬ GeometryOk s := by
  unfold GeometryOk
  decide

theorem witness_SnapshotDelaysResync :
    let s := { up prmA cfgSer with resyncPending := true }
    ThreadReady s ∧ s.active = false ∧ (s.buf s.head).st ≠ .held ∧ (cfgNBuffers s.cfg).toNat ≤ s.bufs.length ∧
    GeometryOk s ∧ cfgEngine s.cfg = .serial ∧ s.resyncPending = true := by
  unfold GeometryOk
  decide

/-- Ticks 204 and 205 of a delay of 185 that began at 20 (program P2). -/
theorem witness_PollEndsDelay :
    sNone.snap = .idle ∧ sDelay.snap = .delay ∧ (204#32 - sDelay.tRs).toNat < sDelay.prm.resync ∧
    sDelay.prm.resync ≤ (205#32 - sDelay.tRs).toNat ∧ (sDelay.buf sDelay.head).st ≠ .readable := by decide

/-- Ticks 149 and 150 of a timeout of 50 that began at 100 (V1). -/
theorem witness_PollWithoutFrame :
    sWait.snap = .wait ∧ (sWait.buf sWait.head).st ≠ .readable ∧ sWait.nonblock = false ∧
    ({ sWait with nonblock := true } : State).nonblock = true ∧
    sWait.timeout.toNat ≤ (150#32 - sWait.tStart).toNat ∧ (149#32 - sWait.tStart).toNat < sWait.timeout.toNat := by decide

theorem witness_PollOverflow :
    let s := withBuf sWait 0 .readable 8 5
    s.snap = .wait ∧ (s.buf s.head).st = .readable ∧ (s.buf s.head).bflags.getLsbD 0 = true := by decide

/-- One state for each engine. -/
theorem witness_PollDeliversFrame :
    ∀ s ∈ [withBuf sWait 0 .readable, { withBuf sSer 0 .readable 12 4 with snap := .wait },
        { withBuf sRas 0 .readable 2 6 with snap := .wait }],
      s.snap = .wait ∧ (s.buf s.head).st = .readable ∧ (s.buf s.head).bflags.getLsbD 0 = false ∧
      cfgPixFmt s.cfg ≠ .jpeg := by decide

/-- A marker at the very end of the buffer, after a lone `0xFF`. -/
theorem witness_PollDeliversJpeg :
    let s := { withBuf sJpg 0 .readable 4 4 with
      snap := .wait, fb := [(0, 0xFF#8), (1, 0x01#8), (2, 0xFF#8), (3, 0xD9#8)] }
    s.snap = .wait ∧ (s.buf s.head).st = .readable ∧ (s.buf s.head).bflags.getLsbD 0 = false ∧
    cfgPixFmt s.cfg = .jpeg ∧ s.head.toNat < s.prm.nmax ∧ (s.buf s.head).woff.toNat ≤ s.prm.cap ∧
    2 + 1 < (s.buf s.head).woff.toNat ∧ fbByte s s.head 2 = 0xFF#8 ∧ fbByte s s.head (2 + 1) = 0xD9#8 ∧
    ∀ k, k < 2 → ¬ (fbByte s s.head k = 0xFF#8 ∧ fbByte s s.head (k + 1) = 0xD9#8) := by decide

theorem witness_SubformatShiftLaws :
    (1#3 = 1#3 ∨ 1#3 = 2#3 ∨ 1#3 = 5#3) ∧ (4#3 = 3#3 ∨ 4#3 = 4#3) ∧
    (0#16).toNat % 2 = 0 ∧ (0xFFFE#16).toNat % 2 = 0 := by decide

/-- Lengths one off, and a prefix one too long. -/
theorem witness_ContractViolationsRefused :
    (let s := withPay sSer [0, 0, 0, 0, 1, 2, 3]
     s.active = true ∧ cfgEngine s.cfg = .serial ∧ s.port.pay.length ≠ 4 + s.prm.pktPix * s.prm.pixBytes) ∧
    (let s := withPay sJpg [0, 1, 2, 3, 4, 5, 6, 7, 8]
     s.active = true ∧ cfgEngine s.cfg = .raster ∧ s.inFrame = true ∧ s.reqEn = true ∧
     s.port.pay.length ≠ (cfgLineBytes s.cfg).toNat) ∧
    (let s := withPay sJpg [0, 7, 1, 2, 3, 4, 5, 6]
     s.active = true ∧ cfgEngine s.cfg = .raster ∧ s.inFrame = true ∧ s.reqEn = true ∧
     s.port.pay.length = (cfgLineBytes s.cfg).toNat ∧ s.port.pay.length < 2 + jpegLen s.port.pay) := by decide

theorem witness_EventsIgnored :
    (cfgEngine sRas.cfg ≠ .serial ∧ (up prmA cfgSer).active = false) ∧
    (cfgEngine sSer.cfg ≠ .raster ∧ (up prmA cfgRas).active = false) ∧
    sRas.inFrame = false ∧ ({ sJpg with reqEn := false } : State).reqEn = false ∧
    sRas.prm.nch ≤ (2#8).toNat ∧ sRas.pending.getD (1#8).toNat none = none ∧ sRas.snap = .idle := by decide

theorem witness_PacketsDiscarded :
    (let s := withPay sSer [0x0F, 0x37, 0x12, 0x34, 0, 0, 0, 0]
     PacketActs s ∧ DontCarePacket s) ∧
    (let s := withPay sSer [0, 1, 0, 0, 0, 0, 0, 0]
     PacketActs s ∧ ¬ DontCarePacket s ∧ WaitingForPacketZero s) ∧
    (let s := withPay sMulti [0x20, 1, 0, 0, 0, 0, 0, 0]
     PacketActs s ∧ ¬ DontCarePacket s ∧ ¬ WaitingForPacketZero s ∧ WaitingForSegmentZero s) := by decide

/-- A packet out of order, and a special packet of a wrong segment (V4.3 row 11). -/
theorem witness_InvalidPacketLosesSync :
    (let s := withPay sSerMid [0, 2, 0, 0, 0, 0, 0, 0]
     PacketActs s ∧ ¬ DontCarePacket s ∧ ¬ WaitingForPacketZero s ∧ ¬ WaitingForSegmentZero s ∧ ¬ GoodPacket s) ∧
    (let s := withPay { sMulti with expSeg := 2#3 } [0x30, 1, 0, 0, 0, 0, 0, 0]
     PacketActs s ∧ ¬ DontCarePacket s ∧ ¬ WaitingForPacketZero s ∧ ¬ WaitingForSegmentZero s ∧ ¬ GoodPacket s) := by
  decide

/-- The first packet of a frame, a later one, and one that ends a segment but not the frame. -/
theorem witness_PacketPlaced :
    ∀ s ∈ [withPay sSer [0, 0, 0, 0, 1, 2, 3, 4], withPay sSerMid [0, 1, 0, 0, 1, 2, 3, 4],
        withPay { sMulti with expPid := 2#12 } [0x50, 2, 0, 0, 1, 2, 3, 4]],
      PacketActs s ∧ ¬ DontCarePacket s ∧ GoodPacket s ∧ ¬ AtFrameEnd s ∧ s.tail.toNat < s.bufs.length ∧
      (AtFrameStart s → BufferAvailable s) ∧ inStore s.prm s.tail (packetOffset s) (payloadOf s).length = true := by
  decide

/-- The last packet of three, the last of twelve, and the only packet of a frame of one. -/
theorem witness_PacketCompletesFrame :
    ∀ s ∈ [withPay { sSerMid with expPid := 2#12 } [0, 2, 0, 0, 1, 2, 3, 4],
        withPay { sMulti with expPid := 2#12, expSeg := 3#3 } [0, 2, 0, 0, 1, 2, 3, 4],
        withPay { up { prmA with segPkts := 1, specialPid := 0 } (mkCfg 1 1 0 2 0 0 2 1 0 1 0) with active := true }
          [0, 0, 0, 0, 1, 2, 3, 4]],
      PacketActs s ∧ ¬ DontCarePacket s ∧ GoodPacket s ∧ AtFrameEnd s ∧ s.tail.toNat < s.bufs.length ∧
      (AtFrameStart s → BufferAvailable s) ∧ inStore s.prm s.tail (packetOffset s) (payloadOf s).length = true := by
  decide

/-- A READABLE buffer at `tail`, and a WRITING one whose token is invalid. -/
theorem witness_NoBufferAborts :
    (let s := withPay (withBuf sSer 0 .readable) [0, 0, 0, 0, 1, 2, 3, 4]
     s.tail.toNat < s.bufs.length ∧ ¬ BufferAvailable s ∧ PacketActs s ∧ ¬ DontCarePacket s ∧ GoodPacket s ∧
     AtFrameStart s) ∧
    (let s := withBuf sRas 0 .writing
     s.tail.toNat < s.bufs.length ∧ ¬ BufferAvailable s ∧ cfgEngine s.cfg = .raster ∧ s.active = true) := by decide

theorem witness_SofStartsFrame :
    ∀ s ∈ [sRas, sRasLine, sJpg], cfgEngine s.cfg = .raster ∧ s.active = true ∧ BufferAvailable s := by decide

/-- The first line below a window of lines 0 and 1, and the line above a window that starts at line 1. -/
theorem witness_LineOutsideWindow :
    ∀ s ∈ [withPay { sRasLine with line := 2#32 } [1, 2, 3, 4],
        withPay { sRasLine with cfg := mkCfg 2 1 0 2 1 1 2 2 4 0 0 } [1, 2, 3, 4]],
      LineActs s ∧ ¬ LineInWindow s := by decide

/-- The first and the last row of the window. -/
theorem witness_LineCopied :
    ∀ s ∈ [withPay sRasCopy [1, 2, 3, 4], withPay { withBuf sRasCopy 0 .writing 1 with line := 1#32 } [1, 2, 3, 4]],
      LineActs s ∧ LineInWindow s ∧ s.drop = false ∧ s.dmaEn = false ∧ s.tail.toNat < s.bufs.length ∧
      inStore s.prm s.tail (rowStart s) (visibleBytes s).length = true := by decide

theorem witness_DroppedLineCounted :
    let s := withPay { withBuf sRasLine 0 .writing 1 with drop := true, line := 1#32 } [1, 2, 3, 4]
    LineActs s ∧ LineInWindow s ∧ s.drop = true ∧ s.tail.toNat < s.bufs.length := by decide

/-- The last of three attempts succeeds, on a handle with a record and on one without. -/
theorem witness_LineSubmitted :
    (let s := withPay sRasLine [1, 2, 3, 4]
     LineActs s ∧ LineInWindow s ∧ s.drop = false ∧ s.dmaEn = true ∧ s.tail.toNat < s.bufs.length ∧
     s.rr.toNat < s.pending.length ∧ s.pending.getD s.rr.toNat none = none ∧ 2 < s.prm.dmaRetry ∧
     (0b011#8).getLsbD 2 = false ∧ ∀ j, j < 2 → (0b011#8).getLsbD j = true) ∧
    (let s := withPay { sRasLine with pending := [none, some ⟨0#8, 14, [1#8, 2#8]⟩], rr := 1#8 } [1, 2, 3, 4]
     LineActs s ∧ LineInWindow s ∧ s.rr.toNat < s.pending.length ∧
     s.pending.getD s.rr.toNat none = some ⟨0#8, 14, [1#8, 2#8]⟩ ∧
     inStore s.prm 0#8 14 ([1#8, 2#8] : List Byte).length = true) := by decide

theorem witness_LineSubmissionExhausted :
    let s := withPay sRasLine [1, 2, 3, 4]
    LineActs s ∧ LineInWindow s ∧ s.drop = false ∧ s.dmaEn = true ∧ s.tail.toNat < s.bufs.length ∧
    ∀ j, j < s.prm.dmaRetry → (0b111#8).getLsbD j = true := by decide

/-- A line that fills the buffer exactly, and the two outcomes of the scan. -/
theorem witness_JpegLineAppended :
    (let s := withPay (withBuf sJpg 0 .writing 6) [0, 2, 0xD9, 0, 0, 0, 0, 0]
     JpegLineActs s ∧ (s.buf s.tail).woff.toNat + jpegLen s.port.pay ≤ s.prm.cap ∧ s.tail.toNat < s.prm.nmax ∧
     s.tail.toNat < s.bufs.length) ∧
    MarkerFound { sJpg with fb := Memory.setRange sJpg.fb (fbKey 0 0) [0xFF#8, 0xD9#8] } 0 2 ∧
    ¬ MarkerFound { sJpg with fb := Memory.setRange sJpg.fb (fbKey 0 0) [0xD9#8, 0xFF#8] } 0 2 := by
  refine ⟨by decide, ⟨0, by decide, by decide, by decide, by decide⟩, ?_⟩
  rintro ⟨m, _, h, hff, _⟩
  obtain rfl : m = 0 := by omega
  exact absurd hff (by decide)

/-- One byte too many. -/
theorem witness_JpegLineOverflows :
    let s := withPay (withBuf sJpg 0 .writing 7) [0, 2, 0xD9, 0, 0, 0, 0, 0]
    JpegLineActs s ∧ s.prm.cap < (s.buf s.tail).woff.toNat + jpegLen s.port.pay ∧ s.tail.toNat < s.bufs.length := by
  decide

/-- A record that ends at the last byte of its buffer, on the last handle. -/
theorem witness_DmaDoneLands :
    let s := { sRas with pending := [none, some ⟨3#8, 14, [1#8, 2#8]⟩] }
    cfgEngine s.cfg = .raster ∧ (1#8).toNat < s.prm.nch ∧
    s.pending.getD (1#8).toNat none = some ⟨3#8, 14, [1#8, 2#8]⟩ ∧
    inStore s.prm 3#8 14 ([1#8, 2#8] : List Byte).length = true := by decide

/-- V3: the source's 640 and 3, 16, and a stride of 0; and the other arm for JPEG, for the serial engine and for none. -/
theorem witness_BurstLaws :
    (∀ s ∈ [up prmA (mkCfg 2 1 0 1 3 0 640 1 0 0 0), up prmA (mkCfg 2 4 0 1 16 0 16 1 0 0 0),
        up prmA (mkCfg 2 2 0 1 1 0 0 1 0 0 0)],
      cfgEngine s.cfg = .raster ∧ cfgPixFmt s.cfg ∈ [.grayscale, .rgb, .yuv, .bayer] ∧
      (cfgU s.cfg).toNat * bytesPerPixel s.prm (cfgPixCode s.cfg) < 2 ^ 32 ∧
      (cfgX s.cfg).toNat * bytesPerPixel s.prm (cfgPixCode s.cfg) < 2 ^ 32) ∧
    ∀ s ∈ [sJpg, sSer, sNone],
      cfgEngine s.cfg ≠ .raster ∨ cfgPixFmt s.cfg ∉ [.grayscale, .rgb, .yuv, .bayer] := by decide

theorem witness_InterruptEventsStayInProducer :
    (Instr.evSof false).opcode ∈ [Opcode.evPkt, .evSof, .evLine, .evDmaDone] ∧
    ∃ t, exec (.evSof false) sRas = .next t ∧ t.inFrame = true :=
  ⟨by decide, exists_next (f := fun t => t.inFrame) (by decide)⟩

theorem witness_CaptureStartsAfterDelay :
    (∃ t, exec (.snapshot 0x20#8) sNone = .next t ∧ (sNone.active, t.active) = (false, true)) ∧
    ∃ t, exec .evPoll { sDelay with port := inp 0x84 205 } = .next t ∧ (sDelay.active, t.active) = (false, true) :=
  ⟨exists_next (f := fun t => (sNone.active, t.active)) (by decide),
   exists_next (f := fun t => (sDelay.active, t.active)) (by decide)⟩

theorem witness_NoPartialCommit :
    ∃ t, exec .evPkt (withPay { sSerMid with expPid := 2#12 } [0, 2, 0, 0, 1, 2, 3, 4]) = .next t ∧
      ((sSerMid.buf 0#8).st, (t.buf 0#8).st) = (.writing, .readable) :=
  exists_next (f := fun t => ((sSerMid.buf 0#8).st, (t.buf 0#8).st)) (by decide)

/-- `[H,F,F]` is a state of the invariant. -/
theorem inv_sNoneH : Inv sNoneH := by
  refine ⟨?_, ?_, ?_, ?_, ?_, ?_, by decide⟩
  · unfold SizesInv; decide
  · unfold SessionInv; decide
  · unfold QuietInv; decide
  · intro _
    exact ⟨by decide, by decide, 1, by decide, by decide, by decide⟩
  · unfold EngineInv; decide
  · refine ⟨?_, by decide, by decide, by decide, ?_, by decide⟩
    · rintro (h | h) <;> exact absurd h (by decide)
    · intro t h
      exact absurd h (by
        change some t ∉ [none, none]
        simp)

/-- `[W,F]` in the middle of an active serial frame, its next packet arriving. -/
def sSerNext : State := { sSerMid with inputs := [inp 0x80000080 0 0 [0, 1, 0, 0, 1, 2, 3, 4]] }

/-- It is a state of the invariant. -/
theorem inv_sSerNext : Inv sSerNext := by
  refine ⟨?_, ?_, ?_, ?_, ?_, ?_, by decide⟩
  · exact ⟨by decide, by decide, by decide⟩
  · exact ⟨fun h => absurd h (by decide), fun h => absurd h (by decide), fun h => absurd h (by decide),
      fun _ => ⟨by decide, by decide⟩⟩
  · exact fun h => absurd h (by decide)
  · intro _
    exact ⟨by decide, by decide, 0, by decide, by decide, by decide⟩
  · exact ⟨fun _ _ _ => by decide, fun _ h _ => absurd h (by decide), fun _ _ _ => by decide,
      fun h => absurd h (by decide)⟩
  · refine ⟨fun _ => ⟨by decide, ?_⟩, by decide, by decide, by decide, ?_, fun _ h => absurd h (by decide)⟩
    · exact ⟨by decide, by decide, by decide, by decide, by decide⟩
    · intro t h
      exact absurd h (by
        change some t ∉ [none, none]
        simp)

theorem witness_HeldBufferKept :
    Inv sNoneH ∧ sNoneH.initialised = true ∧
    (∃ t, exec (.acquire 0x08#8) sNoneH = .next t ∧ (t.buf 1#8).st = .writing) ∧
    (Instr.acquire 0x08#8).opcode ∉ [.snapshot, .freeCurrent, .setupBuffers, .init, .deinit] ∧
    (0#8).toNat < (cfgNBuffers sNoneH.cfg).toNat ∧ (sNoneH.buf 0#8).st = .held ∧
    ∀ r, some r ∈ sNoneH.pending → r.buf ≠ 0#8 :=
  ⟨inv_sNoneH, by decide, exists_next (f := fun t => (t.buf 1#8).st) (by decide), by decide, by decide, by decide, by
    intro r h
    exact absurd h (by
      change some r ∉ [none, none]
      simp)⟩

theorem witness_StepKeepsInv :
    Inv sSerNext ∧ ∃ t, step sSerNext = .next t ∧ t.expPid = 2#12 :=
  ⟨inv_sSerNext, exists_next (f := fun t => t.expPid) (by decide)⟩

theorem witness_NoAccessOutsideStore : Inv sNoneH := inv_sNoneH

/-- The id word of packet `k` of a segment of `n`, with bit 15 set and the segment id on every packet. -/
def idOf (n k : Nat) : BitVec 16 := BitVec.ofNat 16 (k % n + k / n * 2 ^ 12 + 2 ^ 15)

/-- A frame of three packets whose segment bits, not examined, are 7 on every packet, and an extended sensor with segments
of one packet; check words that differ from packet to packet. -/
theorem witness_RoundTrip :
    (let ids : Nat → BitVec 16 := fun k => BitVec.ofNat 16 (k + 7 * 2 ^ 12)
     let s := { sSer with
       inputs := frameInputs prmA false 7#32 ids (fun k => BitVec.ofNat 16 (0xABCD + k)) (List.replicate 12 0xA5#8) }
     s.prm.valid = true ∧ cfgEngine s.cfg = .serial ∧ s.active = true ∧ AtFrameStart s ∧
     s.tail.toNat < s.bufs.length ∧ s.tail.toNat < s.prm.nmax ∧ (s.buf s.tail).st = .free ∧
     (List.replicate 12 0xA5#8).length = segCount s.multi * s.prm.segPkts * (s.prm.pktPix * s.prm.pixBytes) ∧
     (List.replicate 12 0xA5#8).length ≤ s.prm.cap ∧ tickOk s.lastNow 7#32 = true ∧
     (∀ k, k < segCount s.multi * s.prm.segPkts →
       (ids k).toNat % 2 ^ 12 = k % s.prm.segPkts ∧ ids k &&& s.prm.dcMask ≠ s.prm.dcMatch ∧
       (s.multi = true → k % s.prm.segPkts = s.prm.specialPid →
         (ids k).toNat / 2 ^ 12 % 2 ^ 3 = k / s.prm.segPkts)) ∧
     cfgCrcEn s.cfg = false) ∧
    (let s := { up { prmA with segPkts := 1, specialPid := 0 } (mkCfg 1 1 0 2 0 0 2 1 0 4 0) with active := true }
     s.multi = true ∧ s.prm.valid = true ∧ (s.buf s.tail).st = .free ∧
     (List.replicate 16 0xA5#8).length = segCount s.multi * s.prm.segPkts * (s.prm.pktPix * s.prm.pixBytes) ∧
     (List.replicate 16 0xA5#8).length ≤ s.prm.cap ∧
     ∀ k, k < segCount s.multi * s.prm.segPkts →
       (idOf 1 k).toNat % 2 ^ 12 = k % s.prm.segPkts ∧ idOf 1 k &&& s.prm.dcMask ≠ s.prm.dcMatch ∧
       (s.multi = true → k % s.prm.segPkts = s.prm.specialPid →
         (idOf 1 k).toNat / 2 ^ 12 % 2 ^ 3 = k / s.prm.segPkts)) := by decide

/-! A reachable state with a buffer being written, for whatever parameters the block was built with. -/

/-- Engine NONE, grayscale, one buffer of no bytes. -/
def cfgOne : BitVec 160 := mkCfg 0 1 0 1 0 0 0 0 0 0 0

theorem legal_cfgOne : configLegal Config.params cfgOne = true := by
  have h : 1 ≤ Config.params.nmax := by unfold Config.params; simp
  unfold configLegal
  simp only [show (cfgNBuffers cfgOne).toNat = 1 from by decide, decide_eq_true h]
  decide

theorem run_succ (M : Host.Core) (n : Nat) {a b : M.State} (h : M.step a = .next b) : M.run (n + 1) a = M.run n b := by
  simp [Host.Core.run, h]

/-- `INIT`, then `ACQUIRE FREE`. -/
def initAcquire : List Input :=
  [{ Input.zero with w := 0x00000010#32, cfgPort := cfgOne }, { Input.zero with w := 0x80000802#32 }]

theorem step_init (p : Params) (h : configLegal p cfgOne = true) :
    ∃ u, step { State.powerOn p with inputs := initAcquire } = .next u ∧ u.initialised = true ∧ u.cfg = cfgOne ∧
      u.inputs = initAcquire.tail ∧ u.lastNow = some 0#32 ∧ u.tail = 0#8 ∧
      u.bufs = (List.replicate p.nmax Buf.reset).map fun _ => Buf.reset := by
  have e : step { State.powerOn p with inputs := initAcquire } =
      .next (if configLegal p cfgOne = false then
          reject .illegalConfig
            ({ State.powerOn p with inputs := initAcquire }.take (initAcquire.headD Input.zero) initAcquire.tail)
        else respond .ok none false (latchConfig cfgOne
          ({ State.powerOn p with inputs := initAcquire }.take (initAcquire.headD Input.zero) initAcquire.tail))) := rfl
  rw [if_neg (by simp [h])] at e
  exact ⟨_, e, rfl, rfl, rfl, rfl, rfl, rfl⟩

theorem witness_ReachableRing :
    ∃ s, Reachable s ∧ s.initialised = true ∧ (0#8).toNat < (cfgNBuffers s.cfg).toNat ∧ (s.buf 0#8).st = .writing := by
  obtain ⟨u, hu, hi, hc, hin, hl, ht, hb⟩ := step_init Config.params legal_cfgOne
  have hn : 0 < u.bufs.length := by rw [hb]; unfold Config.params; simp
  have hf : (u.buf 0#8).st = .free := by
    have h : ∀ b ∈ u.bufs, b.st = .free := by
      rw [hb]
      intro b h
      obtain ⟨_, _, rfl⟩ := List.mem_map.1 h
      rfl
    have h0 : u.buf 0#8 = u.bufs[0] := by simp [State.buf, hn]
    rw [h0]
    exact h _ (List.getElem_mem hn)
  let v := u.take { Input.zero with w := 0x80000802#32 } []
  have h2 : step u = .next (acquireBody 0x08#8 v) := by
    have hd : ∀ jpeg, decode jpeg 0x80000802#32 = .ok (.acquire 0x08#8) := by decide
    have hv : admitProducer v (flagsLegal .acquire 0x08#8) = none :=
      admitProducer_ready ⟨hi, by show cfgEngine u.cfg = .none; rw [hc]; decide⟩
    unfold step
    rw [hin]
    simp only [initAcquire, List.tail_cons, hl]
    rw [if_neg (by decide), hd]
    show command (admitProducer v (flagsLegal .acquire 0x08#8)) v (acquireBody 0x08#8) = _
    rw [hv]
    rfl
  have h3 : acquireBody 0x08#8 v = respond .ok (some v.tail) false (takeTail v) := by
    unfold acquireBody
    rw [if_pos (by show (u.buf u.tail).st = .free; rw [ht]; exact hf)]
    rfl
  refine ⟨acquireBody 0x08#8 v, ⟨initAcquire, 2, ?_⟩, ?_⟩
  · exact (run_succ Sys2Proof.core 1 (a := { State.powerOn Config.params with inputs := initAcquire }) (b := u) hu).trans
      (run_succ Sys2Proof.core 0 (a := u) (b := acquireBody 0x08#8 v) h2)
  · rw [h3]
    refine ⟨hi, by show 0 < (cfgNBuffers u.cfg).toNat; rw [hc]; decide, ?_⟩
    show ((u.bufs.set u.tail.toNat ⟨.writing, 0#32, 0#3⟩).getD (0#8).toNat Buf.reset).st = .writing
    rw [ht]
    simp [hn]

end Sys2Proof.Tests
end

section
/-! PROOFS. The step (00_scope R5, R11): one equation for each way `step` can go. -/

namespace Sys2Proof.Machine

/-- The tick contract fails exactly when the tick is half the range of `NOW` or more ahead of the last one (U12). -/
theorem tickOk_some_eq_false_iff (t now : Word) : tickOk (some t) now = false ↔ 2 ^ 31 ≤ (now - t).toNat := by
  simp [tickOk]

theorem step_of_no_input {s : State} (hin : s.inputs = []) : step s = .next s.idleStep := by
  simp [step, hin]

section
variable {s : State} {x : Input} {rest : List Input} (hin : s.inputs = x :: rest)
include hin

theorem step_of_tick_backwards (htick : tickOk s.lastNow x.now = false) : step s = .refused .tickRanBackwards := by
  simp [step, hin, htick]

theorem step_of_decode_ok {i : Instr} (htick : tickOk s.lastNow x.now = true)
    (hdec : decode (jpegMode s) x.w = .ok i) : step s = exec i (s.take x rest) := by
  simp [step, hin, htick, hdec]

/-- A word that is no instruction word is answered `IllegalOp` with nothing changed (R107, R108). -/
theorem step_of_decode_error {e : Reject} (htick : tickOk s.lastNow x.now = true)
    (hdec : decode (jpegMode s) x.w = .error e) : step s = .next (reject .illegalOp (s.take x rest)) := by
  simp [step, hin, htick, hdec]

end

/-- Settles O7: the three clauses are the equations of `step` for a decodable input, for no input and for a tick that
runs backwards; `State.take` and `State.idleStep` are by definition the states the statement writes out. -/
theorem stepRunsDecoded : Obligations.StepRunsDecoded := by
  refine ⟨fun s x rest i hin htick hdec => ?decoded, fun s hin => ?idle, fun s x rest t hin hlast hback => ?backwards⟩
  case decoded => exact step_of_decode_ok hin htick hdec
  case idle => exact step_of_no_input hin
  case backwards =>
    have htick : tickOk s.lastNow x.now = false := by
      rw [hlast]
      exact (tickOk_some_eq_false_iff t x.now).2 hback
    exact step_of_tick_backwards hin htick

end Sys2Proof.Machine
end

section
/-! PROOFS. What every step keeps: when capture becomes active (10_state R30, 43_sync_recovery R228,
70_reset_and_hazards R338), and the invariant at power-on reset (10_state R44, 70_reset_and_hazards R331). -/

namespace Sys2Proof.Machine

/-! ## Inversion of the shared operations: what each can have done when it answers a next state -/

/-- A command is refused with a status and no other change, or runs its body (R298). -/
theorem command_next {refusal : Option Status} {s t : State} {body : State → State}
    (h : command refusal s body = .next t) :
    (∃ e, refusal = some e ∧ t = reject e s) ∨ (refusal = none ∧ t = body s) := by
  cases refusal with
  | none => exact .inr ⟨rfl, (Host.Outcome.next.inj h).symm⟩
  | some e => exact .inl ⟨e, rfl, (Host.Outcome.next.inj h).symm⟩

theorem finish_next {r : Except Fault State} {t : State} (h : finish r = .next t) : r = .ok t := by
  cases r with
  | ok s => exact congrArg Except.ok (Host.Outcome.next.inj h)
  | error f => cases h

/-- A thread command that is admitted finds a session and no snapshot in progress (R112). -/
theorem threadReady_of_admitThread {s : State} {legal : Bool} (h : admitThread s legal = none) : ThreadReady s := by
  unfold admitThread at h
  split at h
  · cases h
  · split at h
    · cases h
    · split at h
      · cases h
      · exact ⟨by simpa using ‹¬s.initialised = false›, by simpa using ‹¬s.snap ≠ .idle›⟩

/-- `Land` writes the record's bytes and clears the record (R194). -/
theorem land_ok {s t : State} {ch : Nat} {r : Transfer} (h : land s ch r = .ok t) :
    inStore s.prm r.buf r.off r.bytes.length = true ∧
      t = { s with
        fb := Memory.setRange s.fb (fbKey r.buf.toNat r.off) r.bytes, pending := s.pending.set ch none } := by
  unfold land at h
  split at h
  · rename_i u hu
    obtain ⟨hin, rfl⟩ := fbWrite_ok hu
    exact ⟨hin, (Except.ok.inj h).symm⟩
  · cases h

/-- `Describe` answers with some size; of the other registers it writes `jpeg_size` alone (R265). -/
theorem describe_ok {s t : State} {i : BitVec 8} (h : describe i s = .ok t) :
    ∃ size jpegSize draws, t = describeWith i size { s with jpegSize := jpegSize, draws := draws } := by
  unfold describe at h
  split at h
  · dsimp only at h
    split at h
    · cases h
    · split at h <;> exact ⟨_, _, _, (Except.ok.inj h).symm⟩
  · exact ⟨_, s.jpegSize, s.draws, (Except.ok.inj h).symm⟩

/-- `Finalize` rejects an overflown frame, its buffer freed, or describes the frame it takes (R264). -/
theorem finalize_ok {s t : State} (h : finalize s = .ok t) :
    t = reject .overflow (freeHead (holdHead s)) ∨ describe s.head (holdHead s) = .ok t := by
  unfold finalize at h
  split at h
  · exact .inl (Except.ok.inj h).symm
  · exact .inr h

/-- `WaitCheck` finalizes a frame, ends the snapshot without one, aborts on a timeout, or waits on (R263). -/
theorem waitCheck_ok {s t : State} (h : waitCheck s = .ok t) :
    (∃ u, finalize s = .ok u ∧ t = { u with snap := .idle }) ∨
    t = { reject .wouldBlock s with snap := .idle } ∨
    t = { reject .captureTimeout (doAbort s) with snap := .idle } ∨
    t = emit .yield s := by
  unfold waitCheck at h
  split at h
  · split at h
    · exact .inl ⟨_, ‹_›, (Except.ok.inj h).symm⟩
    · cases h
  · split at h
    · exact .inr (.inl (Except.ok.inj h).symm)
    · split at h
      · exact .inr (.inr (.inl (Except.ok.inj h).symm))
      · exact .inr (.inr (.inr (Except.ok.inj h).symm))

/-- `Arm` rejects a geometry, begins the resync delay exactly when a serial resync is pending, or starts capture (R228,
R260). -/
theorem cases_of_arm {s t : State} (h : arm s = .ok t) :
    t = reject .invalidFrameSize (resetPool s) ∨
    ((cfgEngine s.cfg = .serial ∧ s.resyncPending = true) ∧
      t = emit .yield { deriveBurst (resetPool s) with tRs := s.port.now, snap := .delay }) ∨
    (¬ (cfgEngine s.cfg = .serial ∧ s.resyncPending = true) ∧
      enterWait (startCapture (deriveBurst (resetPool s))) = .ok t) := by
  unfold arm at h
  dsimp only at h
  split at h
  · exact .inl (Except.ok.inj h).symm
  · split at h
    · exact .inr (.inl ⟨‹_›, (Except.ok.inj h).symm⟩)
    · exact .inr (.inr ⟨‹_›, h⟩)

/-! ## The register `active` after each procedure that writes other registers -/

@[simp] theorem resetPool_active (s : State) : (resetPool s).active = s.active := rfl
@[simp] theorem takeTail_active (s : State) : (takeTail s).active = s.active := rfl
@[simp] theorem clearBuf_active (s : State) (i : BitVec 8) : (clearBuf s i).active = s.active := rfl
@[simp] theorem holdHead_active (s : State) : (holdHead s).active = s.active := rfl
@[simp] theorem freeHead_active (s : State) : (freeHead s).active = s.active := rfl
@[simp] theorem freeAll_active (s : State) : (freeAll s).active = s.active := rfl
@[simp] theorem doAbort_active (s : State) : (doAbort s).active = false := rfl
@[simp] theorem latchConfig_active (c : BitVec 160) (s : State) : (latchConfig c s).active = false := rfl
@[simp] theorem describeWith_active (i : BitVec 8) (size : Word) (s : State) :
    (describeWith i size s).active = s.active := rfl

@[simp] theorem commit_active (checked : Bool) (s : State) : (commit checked s).active = s.active := by
  rw [commit_eq]
  rfl

@[simp] theorem abortIfActive_active (s : State) : (abortIfActive s).active = false := by
  unfold abortIfActive
  split
  · rfl
  · simpa using ‹¬s.active = true›

@[simp] theorem deriveBurst_active (s : State) : (deriveBurst s).active = s.active := by
  rw [deriveBurst_eq]
  rfl

/-- Returning the HELD buffer writes the descriptor file and `head` alone (R259). -/
theorem returnHeld_eq (s : State) :
    returnHeld s = { s with bufs := (returnHeld s).bufs, head := (returnHeld s).head } := by
  unfold returnHeld
  split <;> rfl

@[simp] theorem returnHeld_active (s : State) : (returnHeld s).active = s.active := by rw [returnHeld_eq]
@[simp] theorem returnHeld_cfg (s : State) : (returnHeld s).cfg = s.cfg := by rw [returnHeld_eq]
@[simp] theorem returnHeld_resyncPending (s : State) : (returnHeld s).resyncPending = s.resyncPending := by
  rw [returnHeld_eq]

theorem finalize_active {s t : State} (h : finalize s = .ok t) : t.active = s.active := by
  rcases finalize_ok h with rfl | hd
  · simp
  · obtain ⟨size, jpegSize, draws, rfl⟩ := describe_ok hd
    simp

/-- A check of the wait loop starts no capture. -/
theorem active_of_waitCheck {s t : State} (h : waitCheck s = .ok t) (ht : t.active = true) : s.active = true := by
  rcases waitCheck_ok h with ⟨u, hu, rfl⟩ | rfl | rfl | rfl
  · exact (finalize_active hu).symm.trans ht
  · exact ht
  · cases ht
  · exact ht

/-! ## Which instructions start capture -/

/-- A command whose body starts no capture starts none. -/
theorem active_of_command {refusal : Option Status} {s t : State} {body : State → State}
    (h : command refusal s body = .next t) (hbody : (body s).active = true → s.active = true)
    (ht : t.active = true) : s.active = true := by
  rcases command_next h with ⟨e, -, rfl⟩ | ⟨-, rfl⟩
  · exact ht
  · exact hbody ht

theorem setupBuffersBody_active (s : State) : (setupBuffersBody s).active = s.active := by
  unfold setupBuffersBody
  split <;> simp

theorem acquireBody_active (flags : BitVec 8) (s : State) : (acquireBody flags s).active = s.active := by
  unfold acquireBody
  split
  · split <;> simp
  · simp

theorem releaseBody_active (flags : BitVec 8) (s : State) : (releaseBody flags s).active = s.active := by
  unfold releaseBody
  split
  · simp
  · split <;> simp

theorem getHeadBody_active (flags : BitVec 8) (s : State) : (getHeadBody flags s).active = s.active := by
  unfold getHeadBody
  split
  · split <;> simp
  · simp

theorem resetBufBody_active (idx : BitVec 8) (s : State) : (resetBufBody idx s).active = s.active := by
  unfold resetBufBody
  split <;> simp

theorem freeCurrentBody_active (s : State) : (freeCurrentBody s).active = s.active := by
  unfold freeCurrentBody
  split <;> simp

/-- `INIT` starts no capture: it rejects, or latches a session that is inactive (R250). -/
theorem active_of_initBody {s : State} (h : (initBody s).active = true) : s.active = true := by
  unfold initBody at h
  split at h
  · exact h
  · simp at h

/-- An inactive block ignores the capture events (R301). -/
theorem exec_captureEvent_inactive {s : State} {i : Instr} (hs : s.active = false)
    (hi : i.opcode ∈ [.evPkt, .evSof, .evLine]) : exec i s = .next s := by
  cases i with
  | evPkt => exact if_pos (.inr hs)
  | evSof d => exact if_pos (.inr hs)
  | evLineRaster m => exact if_pos (.inr (.inl hs))
  | evLineJpeg m => exact if_pos (.inr (.inl hs))
  | _ => simp [Instr.opcode] at hi

/-- A capture event starts no capture: whatever it does, it does while capture is active. -/
theorem active_of_captureEvent {s t : State} {i : Instr} (hi : i.opcode ∈ [.evPkt, .evSof, .evLine])
    (h : exec i s = .next t) (ht : t.active = true) : s.active = true := by
  by_contra hs
  rw [exec_captureEvent_inactive (Bool.eq_false_of_not_eq_true hs) hi] at h
  cases h
  exact hs ht

/-- The completion of a transfer leaves capture as it is (R194). -/
theorem execEvDmaDone_active {s t : State} {ch : BitVec 8} (h : execEvDmaDone ch s = .next t) :
    t.active = s.active := by
  unfold execEvDmaDone at h
  split at h
  · cases h; rfl
  · split at h
    · cases h; rfl
    · obtain ⟨-, rfl⟩ := land_ok (finish_next h)
      rfl

/-- `Arm` leaves an inactive block inactive when a serial resync is pending (R228, R260). -/
theorem no_resync_of_arm {s t : State} (h : arm s = .ok t) (hs : s.active = false) (ht : t.active = true) :
    ¬ (cfgEngine s.cfg = .serial ∧ s.resyncPending = true) := by
  rcases cases_of_arm h with rfl | ⟨-, rfl⟩ | ⟨hno, -⟩
  · simp [hs] at ht
  · simp [hs] at ht
  · exact hno

/-- A snapshot starts capture only when it is admitted and finds no serial resync pending. -/
theorem start_of_execSnapshot {s t : State} {flags : BitVec 8} (h : execSnapshot flags s = .next t)
    (hs : s.active = false) (ht : t.active = true) :
    ThreadReady s ∧ ¬ (cfgEngine s.cfg = .serial ∧ s.resyncPending = true) := by
  unfold execSnapshot at h
  split at h
  · cases h
    simp [hs] at ht
  · rename_i hadmit
    have hbody := finish_next h
    unfold snapshotBody at hbody
    dsimp only at hbody
    rw [if_neg (by simp [hs])] at hbody
    have hno := no_resync_of_arm hbody (by simpa using hs) ht
    exact ⟨threadReady_of_admitThread hadmit, by simpa using hno⟩

/-- A poll starts capture only in DELAY, once the resync delay is over (R267). -/
theorem start_of_execEvPoll {s t : State} (h : execEvPoll s = .next t) (hs : s.active = false)
    (ht : t.active = true) : s.snap = .delay ∧ s.prm.resync ≤ (s.port.now - s.tRs).toNat := by
  unfold execEvPoll at h
  split at h
  case h_1 =>
    cases h
    simp [hs] at ht
  case h_2 hsnap =>
    split at h
    case isTrue hover => exact ⟨hsnap, by simpa [delayOver] using hover⟩
    case isFalse =>
      cases h
      simp [hs] at ht
  case h_3 =>
    rw [active_of_waitCheck (finish_next h) ht] at hs
    cases hs

/-- No instruction but a snapshot and a poll starts capture. -/
theorem active_of_exec {s t : State} {i : Instr} (hi : i.opcode ∉ [.snapshot, .evPoll]) (h : exec i s = .next t)
    (ht : t.active = true) : s.active = true := by
  cases i with
  | snapshot flags => simp [Instr.opcode] at hi
  | evPoll => simp [Instr.opcode] at hi
  | setupBuffers => exact active_of_command h (by simp [setupBuffersBody_active]) ht
  | acquire flags => exact active_of_command h (by simp [acquireBody_active]) ht
  | release flags => exact active_of_command h (by simp [releaseBody_active]) ht
  | getHead flags => exact active_of_command h (by simp [getHeadBody_active]) ht
  | getTail flags => exact active_of_command h id ht
  | resetBuf idx => exact active_of_command h (by simp [resetBufBody_active]) ht
  | freeCurrent => exact active_of_command h (by simp [freeCurrentBody_active]) ht
  | init => exact active_of_command h active_of_initBody ht
  | deinit => exact active_of_command h (by simp [deinitBody]) ht
  | abort => exact active_of_command (body := fun s => respond .ok none false (doAbort s)) h (by simp) ht
  | readable ctx => cases h; exact ht
  | active ctx => cases h; exact ht
  | evDmaDone ch => exact (execEvDmaDone_active h).symm.trans ht
  | evPkt => exact active_of_captureEvent (by simp [Instr.opcode]) h ht
  | evSof d => exact active_of_captureEvent (by simp [Instr.opcode]) h ht
  | evLineRaster m => exact active_of_captureEvent (by simp [Instr.opcode]) h ht
  | evLineJpeg m => exact active_of_captureEvent (by simp [Instr.opcode]) h ht

/-- Settles O53: capture is started by a snapshot or a poll alone, and by each of the two only under its condition. -/
theorem captureStartsAfterDelay : Obligations.CaptureStartsAfterDelay := by
  intro s t i h hs ht
  cases i with
  | snapshot flags =>
    obtain ⟨hready, hresync⟩ := start_of_execSnapshot h hs ht
    exact .inl ⟨flags, rfl, hready, hresync⟩
  | evPoll =>
    obtain ⟨hsnap, hdelay⟩ := start_of_execEvPoll h hs ht
    exact .inr ⟨rfl, hsnap, hdelay⟩
  | _ => exact absurd (active_of_exec (by simp [Instr.opcode]) h ht) (by simp [hs])

/-! ## The invariant at power-on -/

/-- R6 gives every file and every segment at least one entry. -/
theorem pos_of_params_valid {p : Params} (h : p.valid = true) : 0 < p.nmax ∧ 0 < p.segPkts ∧ 0 < p.nch := by
  simp only [Params.valid, Bool.and_eq_true, decide_eq_true_eq] at h
  omega

/-- No transfer is pending at power-on. -/
theorem powerOn_pending {p : Params} {t : Option Transfer} (h : t ∈ (State.powerOn p).pending) : t = none :=
  List.eq_of_mem_replicate h

/-- The invariant holds at power-on whatever parameters of R6 the block is built with: it is uninitialised, inactive and
idle, its files have their sizes, its counters are 0 and its store holds no written byte. -/
theorem inv_powerOn {p : Params} (hp : p.valid = true) : Inv (State.powerOn p) := by
  obtain ⟨-, hseg, hnch⟩ := pos_of_params_valid hp
  refine ⟨?sizes, ?session, ?quiet, ?ring, ?engine, ?store, rfl⟩
  case sizes => exact ⟨hp, List.length_replicate, List.length_replicate⟩
  case session => exact ⟨fun _ => ⟨rfl, rfl⟩, nofun, nofun, nofun⟩
  case quiet => exact fun _ => ⟨rfl, rfl, rfl, rfl, rfl, rfl, rfl, fun _ => powerOn_pending⟩
  case ring => exact nofun
  case engine => exact ⟨nofun, nofun, nofun, nofun⟩
  case store =>
    refine ⟨?inactive, hseg, Nat.one_pos, hnch, fun t ht => ?pending, nofun⟩
    case inactive => rintro (h | h) <;> cases h
    case pending => cases powerOn_pending ht

/-- Settles O56: power-on of the block built, whose parameters meet R6. -/
theorem resetInv : Obligations.ResetInv := inv_powerOn params_valid

end Sys2Proof.Machine
end

section
/-! PROOFS. No access outside the store (20_memory R60, 40_pool_ops R144): what the invariant says of the cursors and of
each access, and, procedure by procedure, that an access inside the store lets the procedure answer a state. -/

namespace Sys2Proof.Machine

/-! ## Taking an input keeps the invariant: it writes the step interface of R11 alone -/

@[simp] theorem deriveBurst_take (s : State) (x : Input) (rest : List Input) :
    deriveBurst (s.take x rest) = (deriveBurst s).take x rest := by
  unfold deriveBurst
  rw [apply_ite (fun u : State => u.take x rest)]
  rfl

theorem burstsDerived_take {s : State} {x : Input} {rest : List Input} (h : BurstsDerived s) :
    BurstsDerived (s.take x rest) := by
  simpa [BurstsDerived] using h

theorem inv_take {s : State} (x : Input) (rest : List Input) (h : Inv s) : Inv (s.take x rest) := by
  obtain ⟨hsizes, hsession, hquiet, hring, hengine, ⟨hcapture, hbounds⟩, hwf⟩ := h
  exact ⟨hsizes, hsession, hquiet, hring, hengine,
    ⟨fun hc => ⟨(hcapture hc).1, burstsDerived_take (hcapture hc).2⟩, hbounds⟩, hwf⟩

/-! ## The cursors name buffers of the store -/

/-- A legal configuration uses no more buffers than are built (R252). -/
theorem nBufs_le_nmax {s : State} (h : configLegal s.prm s.cfg = true) : s.nBufs ≤ s.prm.nmax := by
  simp only [configLegal, Bool.and_eq_true, decide_eq_true_eq] at h
  obtain ⟨⟨⟨-, hle⟩, -⟩, -⟩ := h
  exact hle

theorem ringNext_lt {s : State} (i : BitVec 8) (h : 0 < s.nBufs) : (ringNext s i).toNat < s.nBufs := by
  have hmod : (i.toNat + 1) % s.nBufs < s.nBufs := Nat.mod_lt _ h
  have hbyte : s.nBufs < 2 ^ 8 := (cfgNBuffers s.cfg).isLt
  rwa [ringNext, BitVec.toNat_ofNat, Nat.mod_eq_of_lt (by omega)]

section
variable {s : State} (h : Inv s)
include h

theorem initialised_of_active (ha : s.active = true) : s.initialised = true := by
  obtain ⟨-, ⟨hpower, -⟩, -⟩ := h
  by_contra hi
  simp [(hpower (Bool.eq_false_of_not_eq_true hi)).1] at ha

theorem initialised_of_snap (hsnap : s.snap ≠ .idle) : s.initialised = true := by
  obtain ⟨-, ⟨hpower, -⟩, -⟩ := h
  by_contra hi
  exact hsnap (hpower (Bool.eq_false_of_not_eq_true hi)).2

/-- The ring of an initialised block lies in the store: it has a buffer, no more than are built, and both cursors are in
it (R140, R252). -/
theorem ring_in_store (hi : s.initialised = true) :
    s.nBufs ≤ s.prm.nmax ∧ s.head.toNat < s.nBufs ∧ s.tail.toNat < s.nBufs := by
  obtain ⟨-, ⟨-, -, -, hlegal⟩, -, hring, -⟩ := h
  obtain ⟨hhead, htail, -⟩ := hring hi
  exact ⟨nBufs_le_nmax (hlegal hi).1, hhead, htail⟩

theorem tail_lt_nmax_of_active (ha : s.active = true) : s.tail.toNat < s.prm.nmax := by
  obtain ⟨hn, -, htail⟩ := ring_in_store h (initialised_of_active h ha)
  exact Nat.lt_of_lt_of_le htail hn

/-- A running capture has a geometry that fits the buffer (R261). -/
theorem geometryOk_of_active (ha : s.active = true) : GeometryOk s := by
  obtain ⟨-, -, -, -, -, ⟨hcapture, -⟩, -⟩ := h
  exact (geo_iff s).1 (hcapture (.inl ha)).1

end

/-! ## The access of a packet -/

theorem length_slice_le (bytes : List Byte) (a n : Nat) : (slice bytes a n).length ≤ n := List.length_take_le _ _

/-- The packet expected in a frame of `FRAME_BYTES` ends inside the frame (R160, R163). -/
theorem placeOffset_add_payloadBytes_le {s : State} {pid : BitVec 12} (hpid : pid.toNat < s.prm.segPkts)
    (hseg : s.expSeg.toNat < segCount s.multi) :
    placeOffset s pid + payloadBytes s.prm ≤ frameBytes s.prm s.multi := by
  have hindex : pid.toNat + 1 + s.expSeg.toNat * s.prm.segPkts ≤ segCount s.multi * s.prm.segPkts := by
    calc pid.toNat + 1 + s.expSeg.toNat * s.prm.segPkts
        ≤ (s.expSeg.toNat + 1) * s.prm.segPkts := by rw [Nat.succ_mul]; omega
      _ ≤ segCount s.multi * s.prm.segPkts := Nat.mul_le_mul_right _ hseg
  calc placeOffset s pid + payloadBytes s.prm
      = (pid.toNat + 1 + s.expSeg.toNat * s.prm.segPkts) * (s.prm.pktPix * s.prm.pixBytes) := by
        unfold placeOffset payloadBytes; ring
    _ ≤ segCount s.multi * s.prm.segPkts * (s.prm.pktPix * s.prm.pixBytes) := Nat.mul_le_mul_right _ hindex
    _ = frameBytes s.prm s.multi := by unfold frameBytes; ring

theorem packet_inStore {s : State} (h : Inv s) (ha : s.active = true) (he : cfgEngine s.cfg = .serial)
    (pay : List Byte) :
    inStore s.prm s.tail (placeOffset s s.expPid) (packetPayload s.prm pay).length = true := by
  refine (inStore_iff ..).2 ⟨tail_lt_nmax_of_active h ha, ?_⟩
  have hframe : frameBytes s.prm s.multi ≤ s.prm.cap := (geometryOk_of_active h ha).2.1 he
  obtain ⟨-, -, -, -, -, ⟨-, hpid, hseg, -⟩, -⟩ := h
  have hlen : (packetPayload s.prm pay).length ≤ payloadBytes s.prm := length_slice_le ..
  have hplace := placeOffset_add_payloadBytes_le hpid hseg
  omega

theorem acceptPacket_answers {s : State} {pid : BitVec 12} {pay : List Byte}
    (hin : inStore s.prm s.tail (placeOffset s pid) (packetPayload s.prm pay).length = true) :
    ∃ t, acceptPacket pid pay s = .ok t := by
  unfold acceptPacket place
  rw [fbWrite_inStore _ _ _ _ hin]
  exact ⟨_, rfl⟩

/-- `FrameStartBuffer` writes the descriptor file and the token alone (R225). -/
theorem frameStartBuffer_some {s t : State} (h : frameStartBuffer s = some t) :
    ∃ bufs wrValid, t = { s with bufs := bufs, wrValid := wrValid } := by
  unfold frameStartBuffer at h
  split at h
  · exact ⟨_, s.wrValid, (Option.some.inj h).symm⟩
  · split at h
    · exact ⟨_, true, (Option.some.inj h).symm⟩
    · cases h

/-- Only a valid packet is placed, and a valid packet is the expected one (R161, R224). -/
theorem packetSteps_answers {s : State} {d : Packet} {pay : List Byte}
    (hin : inStore s.prm s.tail (placeOffset s s.expPid) (packetPayload s.prm pay).length = true) :
    ∃ t, packetSteps d pay s = .ok t := by
  by_cases hvalid : packetValid s d pay = false
  · unfold packetSteps
    rw [if_pos hvalid]
    split
    · exact ⟨_, rfl⟩
    · split <;> exact ⟨_, rfl⟩
  · have hpid : d.pid = s.expPid := by
      simp only [packetValid, Bool.not_eq_false, Bool.and_eq_true, decide_eq_true_eq] at hvalid
      exact hvalid.1.1
    unfold packetSteps
    rw [if_neg hvalid, hpid]
    split
    · exact ⟨_, rfl⟩
    split
    · exact ⟨_, rfl⟩
    split
    · split
      · exact ⟨_, rfl⟩
      · obtain ⟨bufs, wrValid, rfl⟩ := frameStartBuffer_some ‹_›
        exact acceptPacket_answers hin
    · exact acceptPacket_answers hin

theorem packetBody_answers {s : State} {pay : List Byte}
    (hin : inStore s.prm s.tail (placeOffset s s.expPid) (packetPayload s.prm pay).length = true) :
    ∃ t, packetBody pay s = .ok t := by
  unfold packetBody
  split
  · exact ⟨_, rfl⟩
  · exact packetSteps_answers hin
  · exact packetSteps_answers hin

/-! ## The accesses of a raster line -/

/-- The destination stride is at most the bytes of a visible row, its register holding the product modulo `2^32`
(R181). -/
theorem deriveBurst_dstStride_le (s : State) :
    (deriveBurst s).dstStride.toNat ≤ (cfgU s.cfg).toNat * bytesPerPixel s.prm (cfgPixCode s.cfg) := by
  unfold deriveBurst
  split
  · exact Nat.mod_le _ _
  · exact Nat.zero_le _

theorem deriveBurst_dstStride_of_jpeg {s : State} (hj : cfgPixFmt s.cfg = .jpeg) :
    (deriveBurst s).dstStride = 0#32 := by
  simp [deriveBurst, hj, PixFmt.isRaster]

/-- The rows of the vertical crop window fit the buffer (R144, R261). -/
theorem rows_fit {s : State} (h : Inv s) (ha : s.active = true) (he : cfgEngine s.cfg = .raster) :
    (cfgV s.cfg).toNat * s.dstStride.toNat ≤ s.prm.cap := by
  obtain ⟨-, -, hgeometry, -⟩ := geometryOk_of_active h ha
  obtain ⟨-, -, -, -, -, ⟨hcapture, -⟩, -⟩ := h
  obtain ⟨-, hstride, -⟩ := hcapture (.inl ha)
  rw [hstride]
  by_cases hj : cfgPixFmt s.cfg = .jpeg
  · simp [deriveBurst_dstStride_of_jpeg hj]
  · obtain ⟨-, -, -, -, hraster⟩ := hgeometry he
    obtain ⟨-, -, -, hfit⟩ := hraster hj
    calc (cfgV s.cfg).toNat * (deriveBurst s).dstStride.toNat
        ≤ (cfgV s.cfg).toNat * ((cfgU s.cfg).toNat * bytesPerPixel s.prm (cfgPixCode s.cfg)) :=
          Nat.mul_le_mul_left _ (deriveBurst_dstStride_le s)
      _ = (cfgU s.cfg).toNat * (cfgV s.cfg).toNat * bytesPerPixel s.prm (cfgPixCode s.cfg) := by ring
      _ ≤ s.prm.cap := hfit

/-- A row of the vertical crop window ends inside the buffer (R144, R185). -/
theorem row_inStore {s : State} (h : Inv s) (ha : s.active = true) (he : cfgEngine s.cfg = .raster) {row : Nat}
    (hrow : row < (cfgV s.cfg).toNat) (pay : List Byte) :
    inStore s.prm s.tail (rowOffset s row) (lineWindow s pay).length = true := by
  refine (inStore_iff ..).2 ⟨tail_lt_nmax_of_active h ha, ?_⟩
  calc rowOffset s row + (lineWindow s pay).length
      ≤ row * s.dstStride.toNat + s.dstStride.toNat := Nat.add_le_add_left (length_slice_le ..) _
    _ = (row + 1) * s.dstStride.toNat := (Nat.succ_mul ..).symm
    _ ≤ (cfgV s.cfg).toNat * s.dstStride.toNat := Nat.mul_le_mul_right _ hrow
    _ ≤ s.prm.cap := rows_fit h ha he

theorem mem_pending_of_pendingAt {s : State} {ch : Nat} {t : Transfer} (h : s.pendingAt ch = some t) :
    some t ∈ s.pending := by
  unfold State.pendingAt at h
  by_cases hch : ch < s.pending.length
  · rw [List.getD_eq_getElem _ _ hch] at h
    exact h ▸ List.getElem_mem hch
  · rw [List.getD_eq_default _ _ (Nat.le_of_not_lt hch)] at h
    cases h

/-- Every pending record names bytes of the store. -/
def PendingInStore (s : State) : Prop :=
  ∀ t, some t ∈ s.pending → inStore s.prm t.buf t.off t.bytes.length = true

theorem pendingInStore_of_inv {s : State} (h : Inv s) : PendingInStore s := by
  obtain ⟨-, -, -, -, -, ⟨-, -, -, -, hpending, -⟩, -⟩ := h
  exact hpending

theorem land_answers {s : State} {ch : Nat} {t : Transfer} (hp : PendingInStore s) (ht : s.pendingAt ch = some t) :
    ∃ u, land s ch t = .ok u :=
  ⟨_, land_inStore s ch t (hp t (mem_pending_of_pendingAt ht))⟩

/-- Recording a line writes no byte of its own: what it may write is the record that is still pending (R187). -/
theorem recordTransfer_answers {s : State} (hp : PendingInStore s) (ch : Nat) (t : Transfer) :
    ∃ u, recordTransfer ch t s = .ok u := by
  unfold recordTransfer
  split
  case h_1 => exact ⟨_, rfl⟩
  case h_2 old hold =>
    obtain ⟨u, hu⟩ := land_answers hp hold
    rw [hu]
    exact ⟨_, rfl⟩

theorem copyLine_answers {s : State} {row : Nat} {pay : List Byte} (hp : PendingInStore s)
    (hin : inStore s.prm s.tail (rowOffset s row) (lineWindow s pay).length = true) (busyMask : BitVec 8) :
    ∃ t, copyLine row pay busyMask s = .ok t := by
  unfold copyLine
  split
  case isTrue => exact ⟨_, fbWrite_inStore _ _ _ _ hin⟩
  case isFalse =>
    unfold copyLineDma
    dsimp only
    split
    · exact recordTransfer_answers (s := emitAll _ { s with rr := _ }) hp _ _
    · exact ⟨_, rfl⟩

theorem row_lt_of_inWindow {s : State} {l : Nat} (h : inWindow s l = true) :
    l - (cfgY s.cfg).toNat < (cfgV s.cfg).toNat := by
  simp only [inWindow, Bool.and_eq_true, decide_eq_true_eq] at h
  omega

theorem rasterLineBody_answers {s : State} (h : Inv s) (ha : s.active = true) (he : cfgEngine s.cfg = .raster)
    (busyMask : BitVec 8) (pay : List Byte) : ∃ t, rasterLineBody busyMask pay s = .ok t := by
  have hp : PendingInStore s := pendingInStore_of_inv h
  unfold rasterLineBody
  dsimp only
  split
  case isFalse => exact ⟨_, rfl⟩
  case isTrue hwindow =>
    split
    · exact ⟨_, rfl⟩
    · obtain ⟨u, hu⟩ := copyLine_answers (s := { s with line := s.line + 1#32 }) hp
        (row_inStore h ha he (row_lt_of_inWindow hwindow) pay) busyMask
      rw [hu]
      exact ⟨_, rfl⟩

/-! ## The access of a JPEG line -/

theorem jpegAppend_answers {s : State} {pay : List Byte} (ht : s.tail.toNat < s.prm.nmax)
    (hfit : (s.buf s.tail).woff.toNat + jpegLen pay ≤ s.prm.cap) : ∃ t, jpegAppend pay s = .ok t := by
  have hlen : (jpegStream pay).length ≤ jpegLen pay := length_slice_le ..
  have hin : inStore s.prm s.tail (s.buf s.tail).woff.toNat (jpegStream pay).length = true :=
    (inStore_iff ..).2 ⟨ht, by omega⟩
  unfold jpegAppend
  dsimp only
  rw [fbWrite_inStore _ _ _ _ hin]
  exact ⟨_, rfl⟩

/-- The overflow test stands before the append (R190, R192). -/
theorem jpegLineBody_answers {s : State} (ht : s.tail.toNat < s.prm.nmax) (pay : List Byte) :
    ∃ t, jpegLineBody pay s = .ok t := by
  unfold jpegLineBody
  dsimp only
  split
  case isTrue => exact ⟨_, rfl⟩
  case isFalse hfit => exact jpegAppend_answers (s := { s with line := s.line + 1#32 }) ht (Nat.le_of_not_lt hfit)

/-! ## The marker search of a snapshot -/

/-- The bytes a snapshot may search are in the store: `head` names a buffer that is built, and no write cursor of a JPEG
session is past the end of its buffer. -/
def SearchInStore (s : State) : Prop :=
  s.head.toNat < s.prm.nmax ∧ (cfgPixFmt s.cfg = .jpeg → ∀ b, b ∈ s.bufs → b.woff.toNat ≤ s.prm.cap)

theorem searchInStore_of_inv {s : State} (h : Inv s) (hi : s.initialised = true) : SearchInStore s := by
  obtain ⟨hn, hhead, -⟩ := ring_in_store h hi
  obtain ⟨-, -, -, -, -, ⟨-, -, -, -, -, hwoff⟩, -⟩ := h
  exact ⟨Nat.lt_of_lt_of_le hhead hn, hwoff hi⟩

/-- The entry of a buffer that does not exist has the cursor 0. -/
theorem buf_woff_le {s : State} {n : Nat} (h : ∀ b, b ∈ s.bufs → b.woff.toNat ≤ n) (i : BitVec 8) :
    (s.buf i).woff.toNat ≤ n := by
  unfold State.buf
  by_cases hi : i.toNat < s.bufs.length
  · rw [List.getD_eq_getElem _ _ hi]
    exact h _ (List.getElem_mem hi)
  · rw [List.getD_eq_default _ _ (Nat.le_of_not_lt hi)]
    exact Nat.zero_le n

theorem mem_freeFirst {n : Nat} {bs : List Buf} {b : Buf} (h : b ∈ freeFirst n bs) : b = Buf.reset ∨ b ∈ bs := by
  induction n generalizing bs with
  | zero => exact .inr h
  | succ n ih =>
    cases bs with
    | nil => exact .inr h
    | cons c bs =>
      rcases List.mem_cons.1 h with rfl | h
      · exact .inl rfl
      · exact (ih h).imp_right (List.mem_cons_of_mem c)

namespace SearchInStore
variable {s : State} (h : SearchInStore s)
include h

/-- Giving a buffer another owner moves no write cursor. -/
theorem setBuf {i : BitVec 8} {b : Buf} (hb : b.woff = (s.buf i).woff) : SearchInStore (s.setBuf i b) := by
  refine ⟨h.1, fun hj c hc => ?_⟩
  rcases List.mem_or_eq_of_mem_set hc with hc | rfl
  · exact h.2 hj c hc
  · rw [hb]
    exact buf_woff_le (h.2 hj) i

theorem holdHead : SearchInStore (holdHead s) := h.setBuf rfl

theorem returnHeld (hpos : 0 < s.nBufs) (hle : s.nBufs ≤ s.prm.nmax) : SearchInStore (returnHeld s) := by
  unfold Machine.returnHeld
  split
  · have hfreed := h.setBuf (i := s.head) (b := { s.buf s.head with st := .free }) rfl
    exact ⟨Nat.lt_of_lt_of_le (ringNext_lt s.head hpos) hle, hfreed.2⟩
  · exact h

theorem resetPool : SearchInStore (resetPool s) := by
  refine ⟨Nat.zero_lt_of_lt h.1, fun hj b hb => ?_⟩
  rcases mem_freeFirst hb with rfl | hb
  · exact Nat.zero_le _
  · exact h.2 hj b hb

theorem deriveBurst : SearchInStore (deriveBurst s) := by
  rw [deriveBurst_eq]
  exact h

theorem startCapture : SearchInStore (startCapture s) := h

theorem describe_answers : ∃ t, describe s.head s = .ok t := by
  unfold describe
  split
  case isFalse => exact ⟨_, rfl⟩
  case isTrue hj =>
    have hin : inStore s.prm s.head 0 (s.buf s.head).woff.toNat = true :=
      (inStore_iff ..).2 ⟨h.1, (Nat.zero_add _).symm ▸ buf_woff_le (h.2 hj) s.head⟩
    dsimp only
    rw [if_neg (by simp [hin])]
    split <;> exact ⟨_, rfl⟩

theorem finalize_answers : ∃ t, finalize s = .ok t := by
  unfold finalize
  split
  · exact ⟨_, rfl⟩
  · exact h.holdHead.describe_answers

theorem waitCheck_answers : ∃ t, waitCheck s = .ok t := by
  by_cases hframe : (s.buf s.head).st = .readable
  · obtain ⟨t, ht⟩ := h.finalize_answers
    unfold waitCheck
    rw [if_pos hframe, ht]
    exact ⟨_, rfl⟩
  · exact waitCheck_no_frame s hframe

theorem enterWait_answers : ∃ t, enterWait s = .ok t := waitCheck_answers (s := waiting s) h

theorem arm_answers : ∃ t, arm s = .ok t := by
  unfold arm
  dsimp only
  split
  · exact ⟨_, rfl⟩
  · split
    · exact ⟨_, rfl⟩
    · exact h.resetPool.deriveBurst.startCapture.enterWait_answers

end SearchInStore

theorem snapshotBody_answers {s : State} (h : Inv s) (hi : s.initialised = true) (flags : BitVec 8) :
    ∃ t, snapshotBody flags s = .ok t := by
  obtain ⟨hn, hhead, -⟩ := ring_in_store h hi
  have hsearch := (searchInStore_of_inv h hi).returnHeld (Nat.zero_lt_of_lt hhead) hn
  unfold snapshotBody
  dsimp only
  split
  · exact SearchInStore.enterWait_answers hsearch
  · exact SearchInStore.arm_answers hsearch

/-! ## The instructions -/

theorem finish_ne_fault {r : Except Fault State} {f : Fault} (h : ∃ t, r = .ok t) : finish r ≠ .fault f := by
  obtain ⟨t, rfl⟩ := h
  exact nofun

theorem command_ne_fault {refusal : Option Status} {s : State} {body : State → State} {f : Fault} :
    command refusal s body ≠ .fault f := by
  cases refusal <;> exact nofun

section
variable {s : State} (h : Inv s) {f : Fault}
include h

theorem execEvPkt_ne_fault : execEvPkt s ≠ .fault f := by
  unfold execEvPkt
  split
  case isTrue => exact nofun
  case isFalse hacts =>
    simp only [ne_eq, not_or, not_not, Bool.not_eq_false] at hacts
    obtain ⟨he, ha⟩ := hacts
    split
    · exact nofun
    · exact finish_ne_fault (packetBody_answers (packet_inStore h ha he _))

theorem execEvLineRaster_ne_fault (busyMask : BitVec 8) : execEvLineRaster busyMask s ≠ .fault f := by
  unfold execEvLineRaster
  split
  case isTrue => exact nofun
  case isFalse hacts =>
    simp only [ne_eq, not_or, not_not, Bool.not_eq_false] at hacts
    obtain ⟨he, ha, -⟩ := hacts
    split
    · exact nofun
    · exact finish_ne_fault (rasterLineBody_answers h ha he busyMask _)

theorem execEvLineJpeg_ne_fault (busyMask : BitVec 8) : execEvLineJpeg busyMask s ≠ .fault f := by
  unfold execEvLineJpeg
  split
  case isTrue => exact nofun
  case isFalse hacts =>
    simp only [ne_eq, not_or, not_not, Bool.not_eq_false] at hacts
    obtain ⟨-, ha, -⟩ := hacts
    split
    · exact nofun
    · split
      · exact nofun
      · exact finish_ne_fault (jpegLineBody_answers (tail_lt_nmax_of_active h ha) _)

theorem execEvDmaDone_ne_fault (ch : BitVec 8) : execEvDmaDone ch s ≠ .fault f := by
  unfold execEvDmaDone
  split
  · exact nofun
  · split
    · exact nofun
    · exact finish_ne_fault (land_answers (pendingInStore_of_inv h) ‹_›)

theorem execSnapshot_ne_fault (flags : BitVec 8) : execSnapshot flags s ≠ .fault f := by
  unfold execSnapshot
  split
  case h_1 => exact nofun
  case h_2 hadmit =>
    obtain ⟨hi, -⟩ := threadReady_of_admitThread hadmit
    exact finish_ne_fault (snapshotBody_answers h hi flags)

theorem execEvPoll_ne_fault : execEvPoll s ≠ .fault f := by
  have hsearch (hsnap : s.snap ≠ .idle) : SearchInStore s := searchInStore_of_inv h (initialised_of_snap h hsnap)
  unfold execEvPoll
  split
  case h_1 => exact nofun
  case h_2 hsnap =>
    split
    · exact finish_ne_fault (hsearch (by simp [hsnap])).startCapture.enterWait_answers
    · exact nofun
  case h_3 hsnap => exact finish_ne_fault (hsearch (by simp [hsnap])).waitCheck_answers

/-- No instruction faults under the invariant. A start of frame and the commands other than a snapshot fault in no state:
the one access they make is `DoAbort`'s, which passes over a record outside the store (R226, log 32). -/
theorem exec_ne_fault (i : Instr) : exec i s ≠ .fault f := by
  cases i with
  | evPkt => exact execEvPkt_ne_fault h
  | evLineRaster busyMask => exact execEvLineRaster_ne_fault h busyMask
  | evLineJpeg busyMask => exact execEvLineJpeg_ne_fault h busyMask
  | evDmaDone ch => exact execEvDmaDone_ne_fault h ch
  | evPoll => exact execEvPoll_ne_fault h
  | snapshot flags => exact execSnapshot_ne_fault h flags
  | evSof throttleDrop =>
    simp only [exec, execEvSof]
    split
    · exact nofun
    · split <;> exact nofun
  | readable ctx => exact nofun
  | active ctx => exact nofun
  | abort => exact command_ne_fault (body := fun s => respond .ok none false (doAbort s))
  | _ => exact command_ne_fault

end

/-- Settles O58: a step that decodes an instruction runs it in a state of the invariant, where none faults; every other
step is a refusal or a next state. -/
theorem noAccessOutsideStore : Obligations.NoAccessOutsideStore := by
  intro s h
  cases hin : s.inputs with
  | nil =>
    rw [step_of_no_input hin]
    exact nofun
  | cons x rest =>
    cases htick : tickOk s.lastNow x.now with
    | false =>
      rw [step_of_tick_backwards hin htick]
      exact nofun
    | true =>
      cases hdec : decode (jpegMode s) x.w with
      | error e =>
        rw [step_of_decode_error hin htick hdec]
        exact nofun
      | ok i =>
        rw [step_of_decode_ok hin htick hdec]
        exact exec_ne_fault (inv_take x rest h) i

end Sys2Proof.Machine
end

section
/-! PROOFS. Decoding and encoding are inverse (30_encoding R90, R94, R107 to R109): the fields of an instruction pass the
decoder's checks, and fields that pass them are the fields of the instruction they select. -/

namespace Sys2Proof

/-- The fields that pass every check of R107 and R108. -/
theorem fieldReject_eq_none_iff {o : Opcode} {a b : BitVec 8} {z : BitVec 7} {c : Ctx} :
    fieldReject o a b z c = none ↔
      z = 0#7 ∧ o.allowsCtx c = true ∧ a &&& ~~~o.byteA = 0#8 ∧
        a &&& Machine.requiredFlags o = Machine.requiredFlags o ∧ b &&& ~~~o.byteB = 0#8 :=
  ⟨fieldReject_none, fun ⟨hz, hctx, ha, hreq, hb⟩ => by simp [fieldReject, hz, hctx, ha, hreq, hb]⟩

/-- R107 for a flag byte: every set bit is accepted and every required bit is set. -/
theorem flagsLegal_iff {o : Opcode} {flags : BitVec 8} :
    Machine.flagsLegal o flags = true ↔
      flags &&& ~~~Machine.acceptedFlags o = 0#8 ∧
        flags &&& Machine.requiredFlags o = Machine.requiredFlags o := by
  simp [Machine.flagsLegal]

/-- A byte that an operation uses whole has no unused bit. -/
theorem and_not_allBits (v : BitVec 8) : v &&& ~~~0xFF#8 = 0#8 := BitVec.and_zero

/-- A byte that an operation does not use is 0. -/
theorem eq_zero_of_and_not_noBits {v : BitVec 8} (h : v &&& ~~~0x00#8 = 0#8) : v = 0#8 :=
  (BitVec.and_allOnes (x := v)).symm.trans h

/-! ## The fields of an instruction -/

theorem allowsCtx_ctx (i : Instr) : i.opcode.allowsCtx i.ctx = true := by cases i <;> rfl

/-- Byte 15:8 of a well-formed instruction holds accepted bits only and every required one. -/
theorem fieldA_legal {i : Instr} (h : i.wellFormed = true) :
    i.fieldA &&& ~~~i.opcode.byteA = 0#8 ∧
      i.fieldA &&& Machine.requiredFlags i.opcode = Machine.requiredFlags i.opcode := by
  cases i with
  | acquire | release | getHead | getTail | snapshot => exact flagsLegal_iff.1 h
  | evSof throttleDrop => cases throttleDrop <;> decide
  | evDmaDone ch => exact ⟨and_not_allBits ch, BitVec.and_zero⟩
  | _ => exact ⟨BitVec.zero_and, BitVec.zero_and⟩

theorem fieldB_legal (i : Instr) : i.fieldB &&& ~~~i.opcode.byteB = 0#8 := by
  cases i with
  | resetBuf v | evLineRaster v | evLineJpeg v => exact and_not_allBits v
  | _ => exact BitVec.zero_and

theorem fieldReject_fields {i : Instr} (h : i.wellFormed = true) :
    fieldReject i.opcode i.fieldA i.fieldB 0#7 i.ctx = none := by
  obtain ⟨hlegal, hreq⟩ := fieldA_legal h
  exact fieldReject_eq_none_iff.2 ⟨rfl, allowsCtx_ctx i, hlegal, hreq, fieldB_legal i⟩

/-- `jpeg` is the mode in which an instruction's word means that instruction: it matters to `EV_LINE` alone (R109). -/
def Instr.inMode (i : Instr) (jpeg : Bool) : Prop :=
  (∀ m, i = .evLineRaster m → jpeg = false) ∧ (∀ m, i = .evLineJpeg m → jpeg = true)

/-- The fields of an instruction select that instruction. -/
theorem instrOf_fields {i : Instr} {jpeg : Bool} (hmode : i.inMode jpeg) :
    instrOf jpeg i.fieldA i.fieldB i.ctx i.opcode = i := by
  obtain ⟨hraster, hjpeg⟩ := hmode
  cases i with
  | evSof throttleDrop => cases throttleDrop <;> rfl
  | evLineRaster m => cases hraster m rfl; rfl
  | evLineJpeg m => cases hjpeg m rfl; rfl
  | _ => rfl

/-- A word decodes when its opcode is in the map and its fields pass the checks (R107, R108). -/
theorem decode_of_fieldReject_none {jpeg : Bool} {w : Word} {o : Opcode} (hop : opcodeOf (w.extractLsb' 0 8) = some o)
    (hfields : fieldReject o (w.extractLsb' 8 8) (w.extractLsb' 16 8) (w.extractLsb' 24 7)
      (ctxOfBit (w.getLsbD 31)) = none) :
    decode jpeg w = .ok (instrOf jpeg (w.extractLsb' 8 8) (w.extractLsb' 16 8) (ctxOfBit (w.getLsbD 31)) o) := by
  simp only [decode, hop, hfields]

/-- Settles O1: the fields of the word are the fields of the instruction, which pass the checks and select it. -/
theorem decodeOfEncode : Obligations.DecodeOfEncode := by
  intro jpeg i hwf hraster hjpeg
  obtain ⟨hop, ha, hb, hz, hc⟩ := wordOf_fields i.ctx.bit i.fieldB i.fieldA i.opcode.code
  rw [← encode_eq_wordOf] at hop ha hb hz hc
  have hsome : opcodeOf ((encode i).extractLsb' 0 8) = some i.opcode := by rw [hop, opcodeOf_code]
  have hdec := decode_of_fieldReject_none (jpeg := jpeg) hsome
  rw [ha, hb, hz, hc, ctxOfBit_bit, instrOf_fields ⟨hraster, hjpeg⟩] at hdec
  exact hdec (fieldReject_fields hwf)

/-! ## The instruction of fields that pass the checks -/

section
variable {jpeg : Bool} {a b : BitVec 8} {c : Ctx} {o : Opcode}

theorem instrOf_evLine : instrOf jpeg a b c .evLine = if jpeg then .evLineJpeg b else .evLineRaster b := rfl

theorem instrOf_opcode : (instrOf jpeg a b c o).opcode = o := by
  cases o with
  | evLine => cases jpeg <;> rfl
  | _ => rfl

theorem instrOf_ctx (h : o.allowsCtx c = true) : (instrOf jpeg a b c o).ctx = c := by
  cases o with
  | readable | active => rfl
  | evLine => cases jpeg <;> exact (eq_of_beq h).symm
  | _ => exact (eq_of_beq h).symm

/-- `EV_SOF` uses bit 8 of its word alone (R94). -/
theorem ite_bit0_of_and_not_one {v : BitVec 8} (h : v &&& ~~~0x01#8 = 0#8) :
    (if v.getLsbD 0 then 0x01#8 else 0x00#8) = v := by
  revert v; decide

theorem instrOf_fieldA (h : a &&& ~~~o.byteA = 0#8) : (instrOf jpeg a b c o).fieldA = a := by
  cases o with
  | acquire | release | getHead | getTail | snapshot | evDmaDone => rfl
  | evSof => exact ite_bit0_of_and_not_one h
  | evLine => cases jpeg <;> exact (eq_zero_of_and_not_noBits h).symm
  | _ => exact (eq_zero_of_and_not_noBits h).symm

theorem instrOf_fieldB (h : b &&& ~~~o.byteB = 0#8) : (instrOf jpeg a b c o).fieldB = b := by
  cases o with
  | resetBuf => rfl
  | evLine => cases jpeg <;> rfl
  | _ => exact (eq_zero_of_and_not_noBits h).symm

theorem instrOf_wellFormed (ha : a &&& ~~~o.byteA = 0#8)
    (hreq : a &&& Machine.requiredFlags o = Machine.requiredFlags o) : (instrOf jpeg a b c o).wellFormed = true := by
  cases o with
  | acquire | release | getHead | getTail | snapshot => exact flagsLegal_iff.2 ⟨ha, hreq⟩
  | evLine => cases jpeg <;> rfl
  | _ => rfl

theorem instrOf_inMode : (instrOf jpeg a b c o).inMode jpeg := by
  cases o with
  | evLine => cases jpeg <;> simp [instrOf_evLine, Instr.inMode]
  | _ => exact ⟨nofun, nofun⟩

end

/-- Settles O2: a word that decodes passed the checks, so that its fields are those of its instruction. -/
theorem encodeOfDecode : Obligations.EncodeOfDecode := by
  intro jpeg w i hdec
  obtain ⟨o, hop, hfields, rfl⟩ := decode_ok hdec
  obtain ⟨hz, hctx, ha, hreq, hb⟩ := fieldReject_none hfields
  refine ⟨?word, instrOf_wellFormed ha hreq, instrOf_inMode⟩
  rw [encode_eq_wordOf, instrOf_opcode, instrOf_ctx hctx, instrOf_fieldA ha, instrOf_fieldB hb, bit_ctxOfBit,
    code_of_opcodeOf hop, wordOf_extract w hz]

/-- Settles O3: the words are closed, so that `decode` evaluates on each of them. -/
theorem writtenWordsDecode : Obligations.WrittenWordsDecode := by
  unfold Obligations.WrittenWordsDecode
  decide

end Sys2Proof
end

section
/-! PROOFS. The words that are no command and no event (30_encoding R107, R108), and the order of the admission checks of
a command word (30_encoding R112, 44_snapshot_control R257). -/

/-! ## What the map of R93 and R95 says of an opcode number -/

namespace Sys2Proof

/-- What the field checks say of a word that decodes, with the opcode of its instruction (R107, R108). -/
theorem checks_of_decode_ok {jpeg : Bool} {w : Word} {i : Instr} (h : decode jpeg w = .ok i) :
    i.opcode.code = w.extractLsb' 0 8 ∧ w.extractLsb' 24 7 = 0#7 ∧
      i.opcode.allowsCtx (ctxOfBit (w.getLsbD 31)) = true ∧ w.extractLsb' 8 8 &&& ~~~i.opcode.byteA = 0#8 ∧
      w.extractLsb' 8 8 &&& Machine.requiredFlags i.opcode = Machine.requiredFlags i.opcode ∧
      w.extractLsb' 16 8 &&& ~~~i.opcode.byteB = 0#8 := by
  obtain ⟨o, hop, hfields, rfl⟩ := decode_ok h
  rw [instrOf_opcode]
  exact ⟨code_of_opcodeOf hop, fieldReject_none hfields⟩

/-- No two opcodes share a number. -/
theorem code_injective {o p : Opcode} (h : o.code = p.code) : o = p :=
  Option.some.inj (by rw [← opcodeOf_code o, h, opcodeOf_code])

/-- Bit 7 of a word is bit 7 of its opcode number: it tells commands from events (R90). -/
theorem bit7_extract_op (w : Word) : (w.extractLsb' 0 8).getLsbD 7 = w.getLsbD 7 := by
  simp

section
variable {o : Opcode}

/-! Commands (R93). -/

theorem code_mem_of_command (h : o.code.getLsbD 7 = false) :
    o.code ∈ [0x01#8, 0x02#8, 0x03#8, 0x04#8, 0x05#8, 0x06#8, 0x07#8, 0x08#8, 0x10#8, 0x11#8, 0x12#8, 0x13#8,
      0x14#8] := by
  revert h; cases o <;> decide

theorem not_allowsCtx_interrupt_of_threadCommand
    (h : o.code ∈ [0x01#8, 0x04#8, 0x05#8, 0x08#8, 0x10#8, 0x11#8, 0x12#8, 0x14#8]) :
    o.allowsCtx .interrupt = false := by
  revert h; cases o <;> decide

theorem not_allowsCtx_thread_of_producerCommand (h : o.code ∈ [0x02#8, 0x03#8, 0x06#8]) :
    o.allowsCtx .thread = false := by
  revert h; cases o <;> decide

theorem byteA_of_inspection (h : o.code ∈ [0x04#8, 0x05#8]) : o.byteA = Machine.flagPeek := by
  revert h; cases o <;> decide

theorem byteA_of_flaglessCommand (hcmd : o.code.getLsbD 7 = false)
    (h : o.code ∉ [0x02#8, 0x03#8, 0x04#8, 0x05#8, 0x14#8]) : o.byteA = 0x00#8 := by
  revert hcmd h; cases o <;> decide

theorem byteB_of_command (hcmd : o.code.getLsbD 7 = false) (h : o.code ≠ 0x06#8) : o.byteB = 0x00#8 := by
  revert hcmd h; cases o <;> decide

/-! Events (R94, R95). -/

theorem code_mem_of_event (h : o.code.getLsbD 7 = true) : o.code ∈ [0x80#8, 0x81#8, 0x82#8, 0x83#8, 0x84#8] := by
  revert h; cases o <;> decide

theorem not_allowsCtx_thread_of_event (hev : o.code.getLsbD 7 = true) (h : o.code ≠ 0x84#8) :
    o.allowsCtx .thread = false := by
  revert hev h; cases o <;> decide

theorem byteA_of_event (hev : o.code.getLsbD 7 = true) (h : o.code ∉ [0x81#8, 0x83#8]) : o.byteA = 0x00#8 := by
  revert hev h; cases o <;> decide

theorem byteB_of_event (hev : o.code.getLsbD 7 = true) (h : o.code ≠ 0x82#8) : o.byteB = 0x00#8 := by
  revert hev h; cases o <;> decide

end

end Sys2Proof

/-! ## The answer to a word that is no instruction -/

namespace Sys2Proof.Machine

theorem reject_illegalOp (s : State) : reject .illegalOp s = s.answered { rsp := 0x0000FF10#32, rsp2 := 0#32 } := rfl

theorem reject_busy (s : State) : reject .busy s = s.answered { rsp := 0x0000FF11#32, rsp2 := 0#32 } := rfl

theorem reject_notInitialised (s : State) :
    reject .notInitialised s = s.answered { rsp := 0x0000FF12#32, rsp2 := 0#32 } := rfl

theorem step_of_no_instr {s : State} {x : Input} {rest : List Input} (hin : s.inputs = x :: rest)
    (htick : tickOk s.lastNow x.now = true) (h : ∀ i, decode (jpegMode s) x.w ≠ .ok i) :
    step s = .next ((s.take x rest).answered { rsp := 0x0000FF10#32, rsp2 := 0#32 }) := by
  cases hdec : decode (jpegMode s) x.w with
  | ok i => exact absurd hdec (h i)
  | error e => rw [step_of_decode_error hin htick hdec, reject_illegalOp]

/-- Settles O4: a word that decodes passes every check of the decoder, and each clause fails one of them. -/
theorem illegalCommandWordsAnswered : Obligations.IllegalCommandWordsAnswered := by
  intro s x rest hin htick hbit7 op flags hillegal
  refine step_of_no_instr hin htick fun i hdec => ?_
  obtain ⟨hop, hzero, hctx, hflags, hrequired, hidx⟩ := checks_of_decode_ok hdec
  have hcmd : i.opcode.code.getLsbD 7 = false := by rw [hop, bit7_extract_op, hbit7]
  rw [show op = i.opcode.code from hop.symm] at hillegal
  rcases hillegal with hreserved | hz | ⟨hthread, hbit31⟩ | ⟨hproducer, hbit31⟩ | ⟨hacquire, hbits⟩ | ⟨hrelease, hbits⟩ |
    ⟨hinspect, hbits⟩ | ⟨hsnapshot, hbits⟩ | ⟨hflagless, hbits⟩ | ⟨hacquire, hclear⟩ | ⟨hgetTail, hclear⟩ |
    ⟨hnoIdx, hbits⟩
  · exact hreserved (code_mem_of_command hcmd)
  · exact hz hzero
  · rw [hbit31] at hctx
    exact Bool.false_ne_true ((not_allowsCtx_interrupt_of_threadCommand hthread).symm.trans hctx)
  · rw [hbit31] at hctx
    exact Bool.false_ne_true ((not_allowsCtx_thread_of_producerCommand hproducer).symm.trans hctx)
  · rw [code_injective (p := .acquire) hacquire] at hflags
    exact hbits hflags
  · rw [code_injective (p := .release) hrelease] at hflags
    exact hbits hflags
  · rw [byteA_of_inspection hinspect] at hflags
    exact hbits hflags
  · rw [code_injective (p := .snapshot) hsnapshot] at hflags
    exact hbits hflags
  · rw [byteA_of_flaglessCommand hcmd hflagless] at hflags
    exact hbits (eq_zero_of_and_not_noBits hflags)
  · rw [code_injective (p := .acquire) hacquire] at hrequired
    exact absurd (hclear.symm.trans hrequired) (by decide)
  · rw [code_injective (p := .getTail) hgetTail] at hrequired
    exact absurd (hclear.symm.trans hrequired) (by decide)
  · rw [byteB_of_command hcmd hnoIdx] at hidx
    exact hbits (eq_zero_of_and_not_noBits hidx)

/-- Settles O5: a word that decodes passes every check of the decoder, and each clause fails one of them. -/
theorem reservedEventWordsAnswered : Obligations.ReservedEventWordsAnswered := by
  intro s x rest hin htick hbit7 op a hreservedWord
  refine step_of_no_instr hin htick fun i hdec => ?_
  obtain ⟨hop, hzero, hctx, ha, -, hmask⟩ := checks_of_decode_ok hdec
  have hev : i.opcode.code.getLsbD 7 = true := by rw [hop, bit7_extract_op, hbit7]
  rw [show op = i.opcode.code from hop.symm] at hreservedWord
  rcases hreservedWord with hreserved | hz | ⟨hinterrupt, hbit31⟩ | ⟨hpoll, hbit31⟩ | ⟨hsof, hbits⟩ | ⟨hnoA, hbits⟩ |
    ⟨hnoMask, hbits⟩
  · exact hreserved (code_mem_of_event hev)
  · exact hz hzero
  · rw [hbit31] at hctx
    exact Bool.false_ne_true ((not_allowsCtx_thread_of_event hev hinterrupt).symm.trans hctx)
  · rw [hbit31, code_injective (p := .evPoll) hpoll] at hctx
    exact absurd hctx (by decide)
  · rw [code_injective (p := .evSof) hsof] at ha
    exact hbits ha
  · rw [byteA_of_event hev hnoA] at ha
    exact hbits (eq_zero_of_and_not_noBits ha)
  · rw [byteB_of_event hev hnoMask] at hmask
    exact hbits (eq_zero_of_and_not_noBits hmask)

/-! ## Admission -/

/-- The admission check that `exec` makes for each opcode (R112), `legal` being the verdict of R107 on the flag byte.
`READABLE`, `ACTIVE` and the events are always admitted. -/
def admission (o : Opcode) (legal : Bool) (s : State) : Option Status :=
  match o with
  | .setupBuffers | .getHead | .getTail | .freeCurrent | .deinit | .abort | .snapshot => admitThread s legal
  | .acquire | .release | .resetBuf => admitProducer s legal
  | .init => admitInit s
  | .readable | .active | .evPkt | .evSof | .evLine | .evDmaDone | .evPoll => none

theorem command_of_refused {refusal : Option Status} {e : Status} (s : State) (body : State → State)
    (h : refusal = some e) : command refusal s body = .next (reject e s) := by
  rw [h, command]

/-- An instruction that is not admitted is answered with the status of the check, and nothing else changes (R298). -/
theorem exec_of_admission {i : Instr} {s : State} {e : Status} (h : admission i.opcode i.wellFormed s = some e) :
    exec i s = .next (reject e s) := by
  cases i with
  | snapshot flags =>
    have hrefused : admitThread s (flagsLegal .snapshot flags) = some e := h
    simp only [exec, execSnapshot, hrefused]
  | readable | active | evPkt | evSof | evLineRaster | evLineJpeg | evDmaDone | evPoll => cases h
  | abort => exact command_of_refused s (fun s => respond .ok none false (doAbort s)) h
  | _ => exact command_of_refused s _ h

section
variable {o : Opcode} {s : State}

theorem admission_of_uninitialised (hcmd : o.code.getLsbD 7 = false) (hs : s.initialised = false)
    (ho : o ∉ [.init, .active, .readable]) : admission o true s = some .notInitialised := by
  cases o with
  | init | active | readable => exact absurd (by decide) ho
  | evPkt | evSof | evLine | evDmaDone | evPoll => exact absurd hcmd (by decide)
  | acquire | release | resetBuf => simp [admission, admitProducer, hs]
  | _ => simp [admission, admitThread, hs]

theorem admission_of_snapshotInProgress (hcmd : o.code.getLsbD 7 = false) (hs : s.initialised = true ∨ o = .init)
    (hctx : o.allowsCtx .thread = true) (hsnap : s.snap ≠ .idle) (ho : o ∉ [.active, .readable]) :
    admission o true s = some .busy := by
  cases o with
  | active | readable => exact absurd (by decide) ho
  | evPkt | evSof | evLine | evDmaDone | evPoll => exact absurd hcmd (by decide)
  | acquire | release | resetBuf => exact absurd hctx (by decide)
  | init => simp [admission, admitInit, hsnap]
  | _ => simp [admission, admitThread, hs.resolve_right nofun, hsnap]

theorem admission_of_configuredEngine (hs : s.initialised = true) (he : cfgEngine s.cfg ≠ .none)
    (ho : o ∈ [.acquire, .release, .resetBuf]) : admission o true s = some .illegalOp := by
  cases o with
  | acquire | release | resetBuf => simp [admission, admitProducer, hs, he]
  | _ => exact absurd ho (by decide)

end

/-- The admission checks read none of the registers that taking an input writes. -/
theorem admission_take (o : Opcode) (legal : Bool) (s : State) (x : Input) (rest : List Input) :
    admission o legal (s.take x rest) = admission o legal s := by
  cases o <;> rfl

theorem step_of_admission {s : State} {x : Input} {rest : List Input} {i : Instr} {e : Status}
    (hin : s.inputs = x :: rest) (htick : tickOk s.lastNow x.now = true) (hdec : decode (jpegMode s) x.w = .ok i)
    (h : admission i.opcode true s = some e) : step s = .next (reject e (s.take x rest)) := by
  obtain ⟨-, hlegal, -⟩ := encodeOfDecode _ _ _ hdec
  rw [step_of_decode_ok hin htick hdec, exec_of_admission]
  rw [hlegal, admission_take, h]

/-- Settles O10: an undecodable word fails the decoder's checks, and under each other clause the admission check of the
instruction gives the status the clause names. -/
theorem admissionOrder : Obligations.AdmissionOrder := by
  intro s x rest hin htick hbit7
  refine ⟨fun hundecodable => ?_, fun i hdec => ?_⟩
  · exact step_of_no_instr hin htick fun i hdec => by rw [hdec] at hundecodable; cases hundecodable
  obtain ⟨hop, -, hctx, -⟩ := checks_of_decode_ok hdec
  have hcmd : i.opcode.code.getLsbD 7 = false := by rw [hop, bit7_extract_op, hbit7]
  refine ⟨fun hs ho => ?notInitialised, fun hs hthread hsnap ho => ?busy, fun hs _ ho he => ?producerPort⟩
  case notInitialised =>
    rw [step_of_admission hin htick hdec (admission_of_uninitialised hcmd hs ho), reject_notInitialised]
  case busy =>
    rw [hthread] at hctx
    rw [step_of_admission hin htick hdec (admission_of_snapshotInProgress hcmd hs hctx hsnap ho), reject_busy]
  case producerPort =>
    rw [step_of_admission hin htick hdec (admission_of_configuredEngine hs he ho), reject_illegalOp]

end Sys2Proof.Machine
end

section
/-! PROOFS. The layout of the response word, of the packet-id word, of the JPEG length prefix and of the configuration
record (30_encoding R96, R100, R101, R103; 20_memory R63, R64; 00_scope R6). -/

/-! ## Fields as numbers -/

namespace Sys2Proof

/-- The first word holds the high digits of the two words put together. -/
theorem toNat_append_eq_add {m n : Nat} (x : BitVec m) (y : BitVec n) :
    (x ++ y).toNat = x.toNat * 2 ^ n + y.toNat := by
  rw [BitVec.toNat_append, ← Nat.shiftLeft_add_eq_or_of_lt y.isLt, Nat.shiftLeft_eq]

/-- A field of a word is a quotient and a remainder of its number. -/
theorem toNat_extractLsb'_eq_div_mod {w : Nat} (x : BitVec w) (start len : Nat) :
    (x.extractLsb' start len).toNat = x.toNat / 2 ^ start % 2 ^ len := by
  rw [BitVec.extractLsb'_toNat, Nat.shiftRight_eq_div_pow]

/-- A one-bit field of a word. -/
theorem getLsbD_iff_div_mod {w : Nat} (x : BitVec w) (i : Nat) : x.getLsbD i = true ↔ x.toNat / 2 ^ i % 2 = 1 := by
  rw [← BitVec.testBit_toNat, Nat.testBit_eq_decide_div_mod_eq, decide_eq_true_iff]

end Sys2Proof

/-! ## The layouts -/

namespace Sys2Proof.Machine

theorem rspWord_toNat (status idx : BitVec 8) (bflags : BitVec 3) (bstate : BitVec 2) (b : Bool) :
    (rspWord status idx bflags bstate b).toNat =
      status.toNat + idx.toNat * 2 ^ 8 + bflags.toNat * 2 ^ 16 + bstate.toNat * 2 ^ 24 + b.toNat * 2 ^ 26 := by
  have happend : (rspWord status idx bflags bstate b).toNat =
      (0#5 ++ BitVec.ofBool b ++ bstate ++ 0#5 ++ bflags ++ idx ++ status).toNat := rfl
  simp only [happend, toNat_append_eq_add, BitVec.toNat_ofBool, BitVec.toNat_ofNat]
  omega

theorem be16_toNat (b0 b1 : Byte) : (be16 b0 b1).toNat = b0.toNat * 256 + b1.toNat := toNat_append_eq_add b0 b1

section
variable (b0 b1 : Byte) (rest : List Byte)

theorem packetIdw_toNat : (packetIdw (b0 :: b1 :: rest)).toNat = b0.toNat * 256 + b1.toNat := be16_toNat b0 b1

theorem packetPid_toNat : (packetPid (b0 :: b1 :: rest)).toNat = (b0.toNat % 16) * 256 + b1.toNat := by
  have hb1 := b1.isLt
  rw [packetPid, toNat_extractLsb'_eq_div_mod, packetIdw_toNat]
  omega

theorem packetWseg_toNat : (packetWseg (b0 :: b1 :: rest)).toNat = b0.toNat / 16 % 8 := by
  have hb1 := b1.isLt
  rw [packetWseg, toNat_extractLsb'_eq_div_mod, packetIdw_toNat]
  omega

theorem jpegLen_eq : jpegLen (b0 :: b1 :: rest) = b0.toNat * 256 + b1.toNat := be16_toNat b0 b1

end

/-- The engine codes of R100. -/
theorem engineOfCode_iff (e : BitVec 2) :
    (engineOfCode e = .none ↔ e.toNat = 0) ∧ (engineOfCode e = .serial ↔ e.toNat = 1) ∧
      (engineOfCode e = .raster ↔ e.toNat = 2) ∧ (engineOfCode e = .reserved ↔ e.toNat = 3) := by
  revert e; decide

/-- The engine of a record, by the value of its two low bits (R100). -/
theorem cfgEngine_iff (c : BitVec 160) :
    (cfgEngine c = .none ↔ c.toNat % 4 = 0) ∧ (cfgEngine c = .serial ↔ c.toNat % 4 = 1) ∧
      (cfgEngine c = .raster ↔ c.toNat % 4 = 2) ∧ (cfgEngine c = .reserved ↔ c.toNat % 4 = 3) := by
  have hcode : (cfgEngineCode c).toNat = c.toNat % 4 := by
    simp [cfgEngineCode]
  rw [← hcode]
  exact engineOfCode_iff (cfgEngineCode c)

/-- The pixel-format codes of R101. -/
theorem pixFmtOfCode_iff (f : BitVec 3) :
    (pixFmtOfCode f = .grayscale ↔ f = 1#3) ∧ (pixFmtOfCode f = .rgb ↔ f = 2#3) ∧ (pixFmtOfCode f = .yuv ↔ f = 3#3) ∧
      (pixFmtOfCode f = .bayer ↔ f = 4#3) ∧ (pixFmtOfCode f = .jpeg ↔ f = 5#3) ∧
      (pixFmtOfCode f = .reserved ↔ f = 0#3 ∨ f = 6#3 ∨ f = 7#3) := by
  revert f; decide

/-- Settles O6: each field by its place, the codes by their tables. -/
theorem fieldLayouts : Obligations.FieldLayouts := by
  refine ⟨rspWord_toNat, fun b0 b1 rest => ?payload, fun c => ?record, fun p => ⟨rfl, rfl, rfl, rfl⟩⟩
  case payload => exact ⟨packetPid_toNat b0 b1 rest, packetWseg_toNat b0 b1 rest, jpegLen_eq b0 b1 rest⟩
  case record =>
    have hbit (i : Nat) : c.getLsbD i = true ↔ c.toNat / 2 ^ i % 2 = 1 := getLsbD_iff_div_mod c i
    have hfield (start len : Nat) : (c.extractLsb' start len).toNat = c.toNat / 2 ^ start % 2 ^ len :=
      toNat_extractLsb'_eq_div_mod c start len
    obtain ⟨hnone, hserial, hraster, hreserved⟩ := cfgEngine_iff c
    exact ⟨hbit 5, hbit 6, hbit 7, hfield 8 8, hfield 16 8, hfield 24 8, hfield 32 16, hfield 48 16, hfield 64 16,
      hfield 80 16, hfield 96 16, hfield 112 16, hfield 128 32, hnone, hserial, hraster, hreserved, hfield 2 3,
      pixFmtOfCode_iff (cfgPixCode c)⟩

end Sys2Proof.Machine
end

section
/-! PROOFS. The pool operations (40_pool_ops R131 to R139, R142): each runs its body once admitted, and its body in the
words of Safety.lean. -/

namespace Sys2Proof

/-- A word put together from fields, operand byte by operand byte. -/
theorem wordOf_eq_or (c : Bool) (b a o : BitVec 8) :
    wordOf c b a o = wordOf c 0x00#8 0x00#8 o ||| (b.setWidth 32 <<< 16) ||| (a.setWidth 32 <<< 8) := by
  apply BitVec.eq_of_getLsbD_eq
  intro i hi
  simp only [BitVec.getLsbD_or, BitVec.getLsbD_shiftLeft, BitVec.getLsbD_setWidth, wordOf_bit, hi, decide_true,
    Bool.true_and, BitVec.getLsbD_zero]
  by_cases h8 : i < 8
  · simp [h8, show i < 16 by omega]
  by_cases h16 : i < 16
  · simp [h8, h16, show i - 8 < 32 by omega]
  by_cases h24 : i < 24
  · simp [h8, h16, h24, show i - 16 < 32 by omega, show 8 ≤ i - 8 by omega, BitVec.getLsbD_of_ge]
  · simp [h8, h16, h24, show 8 ≤ i - 8 by omega, show 8 ≤ i - 16 by omega, BitVec.getLsbD_of_ge]

end Sys2Proof

namespace Sys2Proof.Machine

/-! ## Admission and answers -/

theorem command_of_admitted {refusal : Option Status} {s : State} {body : State → State} (h : refusal = none) :
    command refusal s body = .next (body s) := by
  rw [h, command]

theorem respond_ok_none_false (s : State) :
    respond .ok none false s = s.answered { rsp := 0x0000FF00#32, rsp2 := 0#32 } := rfl

theorem respond_ok_none_true (s : State) :
    respond .ok none true s = s.answered { rsp := 0x0400FF00#32, rsp2 := 0#32 } := rfl

theorem reject_noBuffer (s : State) : reject .noBuffer s = s.answered { rsp := 0x0000FF07#32, rsp2 := 0#32 } := rfl

section
variable {s : State}

theorem exec_setupBuffers_of_ready (h : ThreadReady s) : exec .setupBuffers s = .next (setupBuffersBody s) :=
  command_of_admitted (admitThread_ready h)

theorem exec_getHead_of_ready {flags : BitVec 8} (h : ThreadReady s) (hlegal : flagsLegal .getHead flags = true) :
    exec (.getHead flags) s = .next (getHeadBody flags s) :=
  command_of_admitted (by rw [hlegal]; exact admitThread_ready h)

theorem exec_getTail_of_ready {flags : BitVec 8} (h : ThreadReady s) (hlegal : flagsLegal .getTail flags = true) :
    exec (.getTail flags) s = .next (respond .ok (some s.tail) false s) :=
  command_of_admitted (body := fun s => respond .ok (some s.tail) false s) (by rw [hlegal]; exact admitThread_ready h)

theorem exec_freeCurrent_of_ready (h : ThreadReady s) : exec .freeCurrent s = .next (freeCurrentBody s) :=
  command_of_admitted (admitThread_ready h)

theorem exec_acquire_of_ready {flags : BitVec 8} (h : ProducerReady s) (hlegal : flagsLegal .acquire flags = true) :
    exec (.acquire flags) s = .next (acquireBody flags s) :=
  command_of_admitted (by rw [hlegal]; exact admitProducer_ready h)

theorem exec_release_of_ready {flags : BitVec 8} (h : ProducerReady s) (hlegal : flagsLegal .release flags = true) :
    exec (.release flags) s = .next (releaseBody flags s) :=
  command_of_admitted (by rw [hlegal]; exact admitProducer_ready h)

theorem exec_resetBuf_of_ready {idx : BitVec 8} (h : ProducerReady s) :
    exec (.resetBuf idx) s = .next (resetBufBody idx s) :=
  command_of_admitted (admitProducer_ready h)

/-! ## The bodies -/

theorem acquireBody_of_free {flags : BitVec 8} (hst : (s.buf s.tail).st = .free) :
    acquireBody flags s = respond .ok (some s.tail) false (if hasFlag flags flagPeek then s else takeTail s) := by
  rw [acquireBody, if_pos hst]

theorem acquireBody_of_not_free {flags : BitVec 8} (hst : (s.buf s.tail).st ≠ .free) :
    acquireBody flags s = reject .noBuffer s := by
  rw [acquireBody, if_neg hst]

theorem getHeadBody_of_readable {flags : BitVec 8} (hst : (s.buf s.head).st = .readable) :
    getHeadBody flags s = respond .ok (some s.head) false (if hasFlag flags flagPeek then s else holdHead s) := by
  rw [getHeadBody, if_pos hst]

theorem getHeadBody_of_not_readable {flags : BitVec 8} (hst : (s.buf s.head).st ≠ .readable) :
    getHeadBody flags s = reject .noBuffer s := by
  rw [getHeadBody, if_neg hst]

theorem releaseBody_of_not_writing {flags : BitVec 8} (hst : (s.buf s.tail).st ≠ .writing) :
    releaseBody flags s = respond .ok none false s := by
  rw [releaseBody, if_pos hst]

theorem releaseBody_of_invalid_token {flags : BitVec 8} (hst : (s.buf s.tail).st = .writing)
    (hchecked : hasFlag flags flagCheckLast = true) (htoken : s.wrValid = false) :
    releaseBody flags s = respond .ok (some s.tail) false s := by
  rw [releaseBody, if_neg (not_not.2 hst), if_pos ⟨hchecked, htoken⟩]

theorem releaseBody_of_writing {flags : BitVec 8} (hst : (s.buf s.tail).st = .writing)
    (htoken : hasFlag flags flagCheckLast = false ∨ s.wrValid = true) :
    releaseBody flags s = respond .ok (some s.tail) true (commit (hasFlag flags flagCheckLast) s) := by
  have hvalid : ¬ (hasFlag flags flagCheckLast ∧ s.wrValid = false) := by
    rcases htoken with h | h <;> simp [h]
  rw [releaseBody, if_neg (not_not.2 hst), if_neg hvalid]

theorem resetBufBody_of_writing {idx : BitVec 8} (hidx : idx.toNat < s.nBufs) (hst : (s.buf idx).st = .writing) :
    resetBufBody idx s = respond .ok (some idx) false (clearBuf s idx) := by
  rw [resetBufBody, if_neg (by rintro (h | h); exacts [absurd hidx (Nat.not_lt.2 h), h hst])]

theorem resetBufBody_of_other {idx : BitVec 8} (h : s.nBufs ≤ idx.toNat ∨ (s.buf idx).st ≠ .writing) :
    resetBufBody idx s = reject .illegalOp s := by
  rw [resetBufBody, if_pos h]

theorem freeCurrentBody_of_held (hst : (s.buf s.head).st = .held) :
    freeCurrentBody s = respond .ok (some s.head) true (freeHead s) := by
  rw [freeCurrentBody, if_pos hst]

theorem freeCurrentBody_of_not_held (hst : (s.buf s.head).st ≠ .held) :
    freeCurrentBody s = respond .ok none false s := by
  rw [freeCurrentBody, if_neg hst]

end

/-- The entry just written, read in a state that writes other registers too: the answer of the commands that write the
buffer they are about reports what they wrote (R96). -/
theorem buf_eq_of_bufs_eq {s t : State} {i : BitVec 8} {b : Buf} (ht : t.bufs = s.bufs.set i.toNat b)
    (hi : i.toNat < s.bufs.length) : t.buf i = b := by
  have hset : t.buf i = (s.setBuf i b).buf i := by rw [State.buf, State.buf, ht, setBuf_bufs]
  rw [hset, buf_setBuf s i b hi]

/-- The descriptor of the buffer at `tail` after its commit (R134). -/
def committedBuf (checked : Bool) (s : State) : Buf :=
  { s.buf s.tail with
    st := .readable, bflags := if checked then (s.buf s.tail).bflags ||| 4#3 else (s.buf s.tail).bflags }

theorem commit_bufs (checked : Bool) (s : State) :
    (commit checked s).bufs = s.bufs.set s.tail.toNat (committedBuf checked s) := by
  rw [commit_eq]
  rfl

/-! ## The statements -/

/-- Settles O11: the body rejects while capture is active, and resets the pool otherwise. -/
theorem setupBuffersResetsPool : Obligations.SetupBuffersResetsPool := by
  refine ⟨rfl, fun s hready hlen => ?_⟩
  rw [exec_setupBuffers_of_ready hready, setupBuffersBody, reject_illegalOp, respond_ok_none_false,
    resetPool_eq s hlen]

/-- Settles O12: with a FREE buffer at `tail` the flag PEEK alone decides whether it is taken. -/
theorem acquireTakesTail : Obligations.AcquireTakesTail := by
  refine ⟨rfl, rfl, fun s hready htail => ⟨fun hst => ⟨?take, ?peek⟩, fun hst flags hflags => ?noBuffer⟩⟩
  case take =>
    have htaken : (takeTail s).buf s.tail = ⟨.writing, 0#32, 0#3⟩ := buf_eq_of_bufs_eq rfl htail
    rw [exec_acquire_of_ready hready (by decide), acquireBody_of_free hst, if_neg (by decide), respond_ok_some, htaken,
      takeTail_eq]
  case peek =>
    rw [exec_acquire_of_ready hready (by decide), acquireBody_of_free hst, if_pos (by decide), respond_ok_some]
  case noBuffer =>
    have hlegal : flagsLegal .acquire flags = true := by rcases hflags with rfl | rfl <;> decide
    rw [exec_acquire_of_ready hready hlegal, acquireBody_of_not_free hst, reject_noBuffer]

/-- Settles O13: nothing is being written, or the checked form finds the token invalid, or the buffer is committed. -/
theorem releaseCommits : Obligations.ReleaseCommits := by
  refine ⟨rfl, rfl, fun s checked hready => ?_⟩
  intro flags b
  have hlegal : flagsLegal .release flags = true := by cases checked <;> decide
  have hchecked : hasFlag flags flagCheckLast = checked := by cases checked <;> decide
  rw [exec_release_of_ready hready hlegal]
  refine ⟨fun hst => ?notWriting, fun hst hc htoken => ?invalidToken, fun hst htoken => ?commits⟩
  case notWriting => rw [releaseBody_of_not_writing hst, respond_ok_none_false]
  case invalidToken => rw [releaseBody_of_invalid_token hst (hchecked.trans hc) htoken, respond_ok_some]
  case commits =>
    have htail : s.tail.toNat < s.bufs.length := lt_length_of_st_ne_free (by simp [hst])
    have hbuf : (commit checked s).buf s.tail = b := buf_eq_of_bufs_eq (commit_bufs checked s) htail
    rw [releaseBody_of_writing hst (by rwa [hchecked]), hchecked, respond_ok_some, hbuf, commit_eq]

/-- Settles O14: with a READABLE buffer at `head` the flag PEEK alone decides whether it is taken. -/
theorem getHeadTakesOldest : Obligations.GetHeadTakesOldest := by
  refine ⟨rfl, rfl, fun s hready => ⟨fun hst => ⟨?take, ?peek⟩, fun hst flags hflags => ?noBuffer⟩⟩
  case take =>
    have hhead : s.head.toNat < s.bufs.length := lt_length_of_st_ne_free (by simp [hst])
    have hheld : (holdHead s).buf s.head = { s.buf s.head with st := .held } := buf_setBuf _ _ _ hhead
    rw [exec_getHead_of_ready hready (by decide), getHeadBody_of_readable hst, if_neg (by decide), respond_ok_some,
      hheld]
    rfl
  case peek =>
    rw [exec_getHead_of_ready hready (by decide), getHeadBody_of_readable hst, if_pos (by decide), respond_ok_some]
  case noBuffer =>
    have hlegal : flagsLegal .getHead flags = true := by rcases hflags with rfl | rfl <;> decide
    rw [exec_getHead_of_ready hready hlegal, getHeadBody_of_not_readable hst, reject_noBuffer]

/-- Settles O15: the body answers about the buffer at `tail`. -/
theorem getTailReports : Obligations.GetTailReports := by
  refine ⟨rfl, fun s hready => ?_⟩
  rw [exec_getTail_of_ready hready (by decide), respond_ok_some]

/-- Settles O16: the two branches of the body; a WRITING buffer has an entry in the file. -/
theorem resetBufClearsWriting : Obligations.ResetBufClearsWriting := by
  refine ⟨fun idx => ?word, fun s idx hready => ⟨fun hidx hst => ?clears, fun hother => ?rejects⟩⟩
  case word =>
    calc encode (.resetBuf idx)
        = wordOf true idx 0x00#8 0x06#8 := rfl
      _ = 0x80000006#32 ||| (idx.setWidth 32 <<< 16) ||| 0x00000000#32 := wordOf_eq_or ..
      _ = 0x80000006#32 ||| (idx.setWidth 32 <<< 16) := BitVec.or_zero
  case clears =>
    have hclear : clearBuf s idx = { s with bufs := s.bufs.set idx.toNat ⟨.writing, 0#32, 0#3⟩ } := by
      rw [clearBuf, hst]
      rfl
    have hbuf : (clearBuf s idx).buf idx = ⟨.writing, 0#32, 0#3⟩ :=
      buf_eq_of_bufs_eq (by rw [hclear]) (lt_length_of_st_ne_free (by simp [hst]))
    rw [exec_resetBuf_of_ready hready, resetBufBody_of_writing hidx hst, respond_ok_some, hbuf, hclear]
  case rejects => rw [exec_resetBuf_of_ready hready, resetBufBody_of_other hother, reject_illegalOp]

/-- The predicate of `READABLE` over buffer numbers (R142): an entry that the file does not have is not READABLE. -/
theorem anyReadable_iff (s : State) :
    anyReadable s = true ↔ ∃ i, i < (cfgNBuffers s.cfg).toNat ∧ (s.buf (BitVec.ofNat 8 i)).st = .readable := by
  have hbyte : (cfgNBuffers s.cfg).toNat < 256 := (cfgNBuffers s.cfg).isLt
  have hnum {i : Nat} (hi : i < (cfgNBuffers s.cfg).toNat) : (BitVec.ofNat 8 i).toNat = i :=
    Nat.mod_eq_of_lt (by omega)
  rw [anyReadable, List.any_eq_true]
  constructor
  · rintro ⟨b, hb, hst⟩
    obtain ⟨i, hi, rfl⟩ := List.mem_take_iff_getElem.1 hb
    obtain ⟨hin, hlen⟩ := Nat.lt_min.1 hi
    refine ⟨i, hin, ?_⟩
    rw [State.buf, hnum hin, List.getD_eq_getElem _ _ hlen]
    exact eq_of_beq hst
  · rintro ⟨i, hin, hst⟩
    have hlen : i < s.bufs.length := by
      have hentry := lt_length_of_st_ne_free (s := s) (i := BitVec.ofNat 8 i) (by simp [hst])
      rwa [hnum hin] at hentry
    refine ⟨s.bufs[i], List.mem_take_iff_getElem.2 ⟨i, Nat.lt_min.2 ⟨hin, hlen⟩, rfl⟩, ?_⟩
    rw [State.buf, hnum hin, List.getD_eq_getElem _ _ hlen] at hst
    exact beq_iff_eq.2 hst

/-- Settles O17: `READABLE` has no admission check, and its answer is the predicate. -/
theorem readableIsPredicate : Obligations.ReadableIsPredicate := by
  refine ⟨rfl, rfl, fun s c => ?_⟩
  have hexec : exec (.readable c) s = .next (respond .ok none (anyReadable s) s) := rfl
  rw [hexec]
  refine ⟨fun hsome => ?_, fun hnone => ?_⟩
  · rw [(anyReadable_iff s).2 hsome, respond_ok_none_true]
  · rw [Bool.eq_false_of_not_eq_true (mt (anyReadable_iff s).1 hnone), respond_ok_none_false]

/-- Settles O18: the two branches of the body. -/
theorem freeCurrentFrees : Obligations.FreeCurrentFrees := by
  refine ⟨rfl, fun s hready => ⟨fun hst => ?frees, fun hst => ?noOp⟩⟩
  case frees =>
    have hhead : s.head.toNat < s.bufs.length := lt_length_of_st_ne_free (by simp [hst])
    have hfreed : (freeHead s).buf s.head = { s.buf s.head with st := .free } := buf_eq_of_bufs_eq rfl hhead
    rw [exec_freeCurrent_of_ready hready, freeCurrentBody_of_held hst, respond_ok_some, hfreed, freeHead_eq]
  case noOp => rw [exec_freeCurrent_of_ready hready, freeCurrentBody_of_not_held hst, respond_ok_none_false]

end Sys2Proof.Machine
end

section
/-! PROOFS. The ring of buffers (40_pool_ops R140, R141): what each pool procedure does to its shape. -/

namespace Sys2Proof.Machine

/-- The buffer `k` places after `head` in ring order. -/
def ringSlot (s : State) (k : Nat) : BitVec 8 := BitVec.ofNat 8 ((s.head.toNat + k) % s.nBufs)

theorem ringAt_eq (s : State) (k : Nat) : ringAt s k = (s.buf (ringSlot s k)).st := rfl

/-- The shape of R140 with the number of the consumer's buffers named. -/
structure RingHolds (s : State) (used : Nat) : Prop where
  head_lt : s.head.toNat < s.nBufs
  used_le : used ≤ s.nBufs
  tail_eq : s.tail.toNat = (s.head.toNat + used) % s.nBufs
  consumer : ∀ k, k < used → ringAt s k = .readable ∨ (k = 0 ∧ ringAt s k = .held)
  atTail : used < s.nBufs → ringAt s used = .free ∨ ringAt s used = .writing
  freeRest : ∀ k, used < k → k < s.nBufs → ringAt s k = .free

theorem ringShape_iff (s : State) : RingShape s ↔ ∃ used, RingHolds s used := by
  constructor
  · rintro ⟨hhead, -, used, hle, htail, hslots⟩
    exact ⟨used, hhead, hle, htail, fun k hk => (hslots k (by omega)).1 hk, fun hlt => (hslots used hlt).2.1 rfl,
      fun k hk hlt => (hslots k hlt).2.2 hk⟩
  · rintro ⟨used, hhead, hle, htail, hconsumer, hatTail, hfree⟩
    refine ⟨hhead, htail ▸ Nat.mod_lt _ (Nat.zero_lt_of_lt hhead), used, hle, htail, fun k hk => ⟨hconsumer k, ?_, ?_⟩⟩
    · rintro rfl
      exact hatTail hk
    · exact fun hlt => hfree k hlt hk

/-! ## Places of the ring -/

theorem nBufs_lt (s : State) : s.nBufs < 256 := (cfgNBuffers s.cfg).isLt

section
variable {s : State} (hpos : 0 < s.nBufs)
include hpos

theorem ringSlot_toNat (k : Nat) : (ringSlot s k).toNat = (s.head.toNat + k) % s.nBufs := by
  have hlt := Nat.mod_lt (s.head.toNat + k) hpos
  have hbyte := nBufs_lt s
  exact Nat.mod_eq_of_lt (by omega)

theorem ringSlot_lt (k : Nat) : (ringSlot s k).toNat < s.nBufs := by
  rw [ringSlot_toNat hpos]
  exact Nat.mod_lt _ hpos

theorem ringNext_toNat (i : BitVec 8) : (ringNext s i).toNat = (i.toNat + 1) % s.nBufs := by
  have hlt := Nat.mod_lt (i.toNat + 1) hpos
  have hbyte := nBufs_lt s
  exact Nat.mod_eq_of_lt (by omega)

/-- Moving `head` on by one place. -/
theorem ringSlot_freeHead (k : Nat) : ringSlot (freeHead s) k = ringSlot s (k + 1) := by
  have hhead : (freeHead s).head.toNat = (s.head.toNat + 1) % s.nBufs := ringNext_toNat hpos _
  apply BitVec.eq_of_toNat_eq
  calc (ringSlot (freeHead s) k).toNat
      = ((freeHead s).head.toNat + k) % s.nBufs := ringSlot_toNat (s := freeHead s) hpos k
    _ = (s.head.toNat + (k + 1)) % s.nBufs := by rw [hhead, Nat.mod_add_mod, Nat.add_assoc, Nat.add_comm 1 k]
    _ = (ringSlot s (k + 1)).toNat := (ringSlot_toNat hpos (k + 1)).symm

/-- Distinct places are distinct buffers. -/
theorem ringSlot_injective {j k : Nat} (hj : j < s.nBufs) (hk : k < s.nBufs) (h : ringSlot s j = ringSlot s k) :
    j = k := by
  have hmod : s.head.toNat + j ≡ s.head.toNat + k [MOD s.nBufs] := by
    rw [Nat.ModEq, ← ringSlot_toNat hpos, ← ringSlot_toNat hpos, h]
  exact (Nat.ModEq.add_left_cancel' _ hmod).eq_of_lt_of_lt hj hk

/-- Every buffer in use has a place. -/
theorem exists_ringSlot_eq {i : BitVec 8} (hhead : s.head.toNat < s.nBufs) (hi : i.toNat < s.nBufs) :
    ∃ k, k < s.nBufs ∧ ringSlot s k = i := by
  refine ⟨(i.toNat + (s.nBufs - s.head.toNat)) % s.nBufs, Nat.mod_lt _ hpos, BitVec.eq_of_toNat_eq ?_⟩
  rw [ringSlot_toNat hpos, Nat.add_mod_mod,
    show s.head.toNat + (i.toNat + (s.nBufs - s.head.toNat)) = i.toNat + s.nBufs by omega, Nat.add_mod_right,
    Nat.mod_eq_of_lt hi]

/-- Writing the buffer at one place changes that place alone. -/
theorem ringAt_setBuf {j k : Nat} (hlen : s.nBufs ≤ s.bufs.length) (hj : j < s.nBufs) (hk : k < s.nBufs) (b : Buf) :
    ringAt (s.setBuf (ringSlot s j) b) k = if k = j then b.st else ringAt s k := by
  have hslot : ringAt (s.setBuf (ringSlot s j) b) k = ((s.setBuf (ringSlot s j) b).buf (ringSlot s k)).st := rfl
  rw [hslot]
  split
  case isTrue heq =>
    subst heq
    rw [buf_setBuf _ _ _ (Nat.lt_of_lt_of_le (ringSlot_lt hpos k) hlen)]
  case isFalse hne =>
    rw [buf_setBuf_ne _ _ _ _ fun h => hne (ringSlot_injective hpos hk hj h), ← ringAt_eq]

end

theorem ringSlot_zero {s : State} (hhead : s.head.toNat < s.nBufs) : ringSlot s 0 = s.head := by
  apply BitVec.eq_of_toNat_eq
  rw [ringSlot_toNat (Nat.zero_lt_of_lt hhead), Nat.add_zero, Nat.mod_eq_of_lt hhead]

@[simp] theorem commit_head (checked : Bool) (s : State) : (commit checked s).head = s.head := by
  rw [commit_eq]
  rfl

@[simp] theorem commit_nBufs (checked : Bool) (s : State) : (commit checked s).nBufs = s.nBufs := by
  rw [commit_eq]
  rfl

/-! ## The cursors in the ring -/

namespace RingHolds
variable {s : State} {used : Nat} (h : RingHolds s used)
include h

theorem pos : 0 < s.nBufs := Nat.zero_lt_of_lt h.head_lt

theorem ringShape : RingShape s := (ringShape_iff s).2 ⟨used, h⟩

theorem tail_slot : s.tail = ringSlot s used :=
  BitVec.eq_of_toNat_eq (h.tail_eq.trans (ringSlot_toNat h.pos used).symm)

/-- A ring without a free place has `tail` at `head`. -/
theorem tail_eq_head (hfull : used = s.nBufs) : s.tail = s.head := by
  apply BitVec.eq_of_toNat_eq
  rw [h.tail_eq, hfull, Nat.add_mod_right, Nat.mod_eq_of_lt h.head_lt]

/-- The buffer at `head` is the consumer's as soon as the consumer has one. -/
theorem head_st (hused : 0 < used) : (s.buf s.head).st = .readable ∨ (s.buf s.head).st = .held := by
  have hzero := h.consumer 0 hused
  rw [ringAt_eq, ringSlot_zero h.head_lt] at hzero
  exact hzero.imp_right And.right

theorem used_lt_of_tail (hst : (s.buf s.tail).st = .free ∨ (s.buf s.tail).st = .writing) : used < s.nBufs := by
  refine Nat.lt_of_le_of_ne h.used_le fun hfull => ?_
  rw [h.tail_eq_head hfull] at hst
  rcases h.head_st (hfull ▸ h.pos) with hhead | hhead <;> simp [hhead] at hst

theorem used_pos_of_head (hst : (s.buf s.head).st = .readable ∨ (s.buf s.head).st = .held) : 0 < used := by
  refine Nat.pos_of_ne_zero fun hzero => ?_
  have htail := h.atTail (hzero ▸ h.pos)
  rw [hzero, ringAt_eq, ringSlot_zero h.head_lt] at htail
  rcases hst with hhead | hhead <;> simp [hhead] at htail

/-- The buffer at `tail` is the only one that may be WRITING. -/
theorem eq_tail_of_writing {i : BitVec 8} (hi : i.toNat < s.nBufs) (hst : (s.buf i).st = .writing) : i = s.tail := by
  obtain ⟨k, hk, rfl⟩ := exists_ringSlot_eq h.pos h.head_lt hi
  rw [← ringAt_eq] at hst
  rcases Nat.lt_trichotomy k used with hlt | rfl | hgt
  · rcases h.consumer k hlt with hk | ⟨-, hk⟩ <;> simp [hk] at hst
  · exact h.tail_slot.symm
  · simp [h.freeRest k hgt hk] at hst

/-! ## The procedures that move a buffer -/

section
variable (hlen : s.nBufs ≤ s.bufs.length)
include hlen

/-- Taking the FREE buffer at `tail` (R132). -/
theorem takeTail (hst : (s.buf s.tail).st = .free) : RingHolds (takeTail s) used := by
  have hlt : used < s.nBufs := h.used_lt_of_tail (.inl hst)
  have hat {k : Nat} (hk : k < s.nBufs) :
      ringAt (Machine.takeTail s) k = if k = used then .writing else ringAt s k := by
    have hset := ringAt_setBuf h.pos hlen hlt hk ⟨.writing, 0#32, 0#3⟩
    rwa [← h.tail_slot] at hset
  refine ⟨h.head_lt, h.used_le, h.tail_eq, fun k hk => ?_, fun hused => ?_, fun k hgt hk => ?_⟩
  · rw [hat (by omega), if_neg (by omega)]
    exact h.consumer k hk
  · rw [hat hused, if_pos rfl]
    exact .inr rfl
  · rw [hat hk, if_neg (by omega)]
    exact h.freeRest k hgt hk

theorem ringAt_commit (hst : (s.buf s.tail).st = .writing) (checked : Bool) {k : Nat} (hk : k < s.nBufs) :
    ringAt (Machine.commit checked s) k = if k = used then .readable else ringAt s k := by
  have hset := ringAt_setBuf h.pos hlen (h.used_lt_of_tail (.inr hst)) hk (committedBuf checked s)
  rw [← h.tail_slot] at hset
  rw [commit_eq]
  exact hset

/-- Committing the WRITING buffer at `tail` (R134). -/
theorem commit (hst : (s.buf s.tail).st = .writing) (checked : Bool) : RingHolds (commit checked s) (used + 1) := by
  have hlt : used < s.nBufs := h.used_lt_of_tail (.inr hst)
  have hat {k : Nat} (hk : k < s.nBufs) := h.ringAt_commit hlen hst checked hk
  have htail : (Machine.commit checked s).tail.toNat = (s.head.toNat + (used + 1)) % s.nBufs := by
    rw [commit_eq]
    calc (ringNext s s.tail).toNat
        = (s.tail.toNat + 1) % s.nBufs := ringNext_toNat h.pos _
      _ = (s.head.toNat + (used + 1)) % s.nBufs := by rw [h.tail_eq, Nat.mod_add_mod, Nat.add_assoc]
  refine ⟨?headLt, ?usedLe, ?tailEq, fun k hk => ?consumer, fun hused => ?atTail, fun k hgt hk => ?freeRest⟩
  case headLt =>
    rw [commit_head, commit_nBufs]
    exact h.head_lt
  case usedLe =>
    rw [commit_nBufs]
    exact hlt
  case tailEq =>
    rw [commit_head, commit_nBufs]
    exact htail
  case consumer =>
    rw [hat (by omega)]
    split
    · exact .inl rfl
    · exact h.consumer k (by omega)
  case atTail =>
    rw [commit_nBufs] at hused
    rw [hat hused, if_neg (by omega)]
    exact .inl (h.freeRest _ (Nat.lt_succ_self used) hused)
  case freeRest =>
    rw [commit_nBufs] at hk
    rw [hat hk, if_neg (by omega)]
    exact h.freeRest k (by omega) hk

/-- After a commit the buffer at `tail` is FREE, or the consumer's when the ring is full. -/
theorem commit_tail_st (hst : (s.buf s.tail).st = .writing) (checked : Bool) :
    ((Machine.commit checked s).buf (Machine.commit checked s).tail).st ≠ .writing := by
  have hcommit := h.commit hlen hst checked
  by_cases hfull : used + 1 = s.nBufs
  · rw [hcommit.tail_eq_head (by rw [commit_nBufs, hfull])]
    rcases hcommit.head_st (Nat.succ_pos used) with hhead | hhead <;> rw [hhead] <;> exact nofun
  · have hlt : used + 1 < s.nBufs := Nat.lt_of_le_of_ne (h.used_lt_of_tail (.inr hst)) hfull
    rw [hcommit.tail_slot, ← ringAt_eq, h.ringAt_commit hlen hst checked hlt, if_neg (Nat.succ_ne_self used),
      h.freeRest _ (Nat.lt_succ_self used) hlt]
    exact nofun

/-- Taking the READABLE buffer at `head` (R135). -/
theorem holdHead (hst : (s.buf s.head).st = .readable) : RingHolds (holdHead s) used := by
  have hused : 0 < used := h.used_pos_of_head (.inl hst)
  have hat {k : Nat} (hk : k < s.nBufs) : ringAt (Machine.holdHead s) k = if k = 0 then .held else ringAt s k := by
    have hset := ringAt_setBuf h.pos hlen h.pos hk { s.buf s.head with st := .held }
    rwa [ringSlot_zero h.head_lt] at hset
  refine ⟨h.head_lt, h.used_le, h.tail_eq, fun k hk => ?_, fun hlt => ?_, fun k hgt hk => ?_⟩
  · rw [hat (Nat.lt_of_lt_of_le hk h.used_le)]
    split
    case isTrue hzero => exact .inr ⟨hzero, rfl⟩
    case isFalse => exact h.consumer k hk
  · rw [hat hlt, if_neg (by omega)]
    exact h.atTail hlt
  · rw [hat hk, if_neg (by omega)]
    exact h.freeRest k hgt hk

/-- Returning the buffer at `head`: every other place moves one nearer to `head`, and the freed buffer comes last. -/
theorem ringAt_freeHead {k : Nat} (hk : k < s.nBufs) :
    ringAt (Machine.freeHead s) k = if k + 1 = s.nBufs then .free else ringAt s (k + 1) := by
  have hset {j : Nat} (hj : j < s.nBufs) := ringAt_setBuf h.pos hlen h.pos hj { s.buf s.head with st := .free }
  rw [ringSlot_zero h.head_lt] at hset
  rw [ringAt_eq, ringSlot_freeHead h.pos]
  split
  case isTrue hlast =>
    have hwrap : ringSlot s (k + 1) = ringSlot s 0 := by
      rw [hlast, ringSlot, ringSlot, Nat.add_mod_right, Nat.add_zero]
    rw [hwrap]
    exact (hset h.pos).trans (if_pos rfl)
  case isFalse hlast => exact (hset (by omega)).trans (if_neg (Nat.succ_ne_zero k))

/-- Returning the HELD buffer at `head` (R139). -/
theorem freeHead (hst : (s.buf s.head).st = .held) : RingHolds (freeHead s) (used - 1) := by
  have hused : 0 < used := h.used_pos_of_head (.inr hst)
  have hle : used ≤ s.nBufs := h.used_le
  have hhead : (Machine.freeHead s).head.toNat = (s.head.toNat + 1) % s.nBufs := ringNext_toNat h.pos _
  have hn : (Machine.freeHead s).nBufs = s.nBufs := rfl
  have hat {k : Nat} (hk : k < s.nBufs) := h.ringAt_freeHead hlen hk
  refine ⟨?headLt, ?usedLe, ?tailEq, fun k hk => ?consumer, fun hlt => ?atTail, fun k hgt hk => ?freeRest⟩
  case headLt =>
    rw [hhead]
    exact Nat.mod_lt _ h.pos
  case usedLe => omega
  case tailEq =>
    calc s.tail.toNat
        = (s.head.toNat + used) % s.nBufs := h.tail_eq
      _ = ((Machine.freeHead s).head.toNat + (used - 1)) % s.nBufs := by
        rw [hhead, Nat.mod_add_mod, Nat.add_assoc, Nat.add_sub_cancel' hused]
  case consumer =>
    rw [hat (by omega), if_neg (by omega)]
    exact .inl ((h.consumer (k + 1) (by omega)).resolve_right nofun)
  case atTail =>
    rw [hat (by omega)]
    split
    · exact .inl rfl
    · rw [Nat.sub_add_cancel hused]
      exact h.atTail (by omega)
  case freeRest =>
    rw [hat hk]
    split
    · rfl
    · exact h.freeRest (k + 1) (by omega) (by omega)

end

end RingHolds

/-! ## Rings that are as they were, and empty rings -/

/-- The shape reads the cursors, the number of buffers and the owners alone. -/
theorem ringShape_of_st_eq {s t : State} (h : RingShape s) (hcfg : t.cfg = s.cfg) (hhead : t.head = s.head)
    (htail : t.tail = s.tail) (hst : ∀ i, (t.buf i).st = (s.buf i).st) : RingShape t := by
  have hn : t.nBufs = s.nBufs := by rw [State.nBufs, State.nBufs, hcfg]
  have hat (k : Nat) : ringAt t k = ringAt s k := by
    rw [ringAt, ringAt, hst, hhead, hn]
  simp only [RingShape, hat, hhead, htail, hn]
  exact h

/-- A ring of FREE buffers has the shape (R131). -/
theorem ringShape_of_free {s : State} (hpos : 0 < s.nBufs) (hhead : s.head = 0#8) (htail : s.tail = 0#8)
    (hfree : ∀ i : BitVec 8, i.toNat < s.nBufs → (s.buf i).st = .free) : RingShape s := by
  have hat (k : Nat) : ringAt s k = .free := hfree _ (ringSlot_lt hpos k)
  refine RingHolds.ringShape (used := 0) ⟨?_, Nat.zero_le _, ?_, nofun, fun _ => .inl (hat 0), fun k _ _ => hat k⟩
  · rw [hhead]
    exact hpos
  · rw [hhead, htail]
    exact (Nat.zero_mod _).symm

end Sys2Proof.Machine
end

section
/-! PROOFS. The invariant and the procedures that the instructions share: what each of them needs to keep it (10_state
R30, 40_pool_ops R140, R141, 43_sync_recovery R225, R226, 44_snapshot_control R261). -/

namespace Sys2Proof.Machine

/-! ## What the invariant reads -/

/-- `s` with every register cleared that the invariant does not read. -/
def State.stripped (s : State) : State :=
  { s with
    jpegSize := 0#32, tRs := 0#32, tStart := 0#32, timeout := 0#32, nonblock := false,
    port := Input.zero, inputs := [], lastNow := none, draws := 0, out := Output.empty }

/-- The registers that `GeometryValid` (R261) and `DeriveBurst` (R181) read or write, every other one at its power-on
value. -/
def State.captureView (s : State) : State :=
  { State.powerOn s.prm with
    cfg := s.cfg, multi := s.multi, dstStride := s.dstStride, srcOff := s.srcOff, dstBurst := s.dstBurst,
    srcBurst := s.srcBurst, dmaEn := s.dmaEn }

/-- What the invariant says of a running capture: the geometry fits a buffer and the burst registers are its own. -/
def CaptureFits (s : State) : Prop := geometryValid s = true ∧ BurstsDerived s

theorem deriveBurst_captureView (s : State) : deriveBurst s.captureView = (deriveBurst s).captureView := by
  unfold deriveBurst
  rw [apply_ite State.captureView]
  rfl

theorem captureFits_captureView (s : State) : CaptureFits s.captureView ↔ CaptureFits s := by
  unfold CaptureFits BurstsDerived
  rw [deriveBurst_captureView]
  exact Iff.rfl

theorem CaptureFits.congr {s t : State} (h : CaptureFits s) (ht : t.captureView = s.captureView) : CaptureFits t := by
  rwa [← captureFits_captureView, ht, captureFits_captureView]

theorem inv_stripped (s : State) : Inv s.stripped ↔ Inv s := by
  constructor
  · rintro ⟨hsizes, hsession, hquiet, hring, hengine, ⟨hcapture, hbounds⟩, hwf⟩
    exact ⟨hsizes, hsession, hquiet, hring, hengine,
      ⟨fun hc => CaptureFits.congr (s := s.stripped) (hcapture hc) rfl, hbounds⟩, hwf⟩
  · rintro ⟨hsizes, hsession, hquiet, hring, hengine, ⟨hcapture, hbounds⟩, hwf⟩
    exact ⟨hsizes, hsession, hquiet, hring, hengine,
      ⟨fun hc => CaptureFits.congr (s := s) (hcapture hc) rfl, hbounds⟩, hwf⟩

/-- A state that differs in registers the invariant does not read. -/
theorem Inv.congr {s t : State} (h : Inv s) (ht : t.stripped = s.stripped) : Inv t := by
  rwa [← inv_stripped, ht, inv_stripped]

/-- Writing an entry with the owner it has changes no owner. -/
theorem st_setBuf (s : State) {i : BitVec 8} {b : Buf} (hst : b.st = (s.buf i).st) (j : BitVec 8) :
    ((s.setBuf i b).buf j).st = (s.buf j).st := by
  by_cases hj : j = i
  · subst hj
    by_cases hlen : j.toNat < s.bufs.length
    · rw [buf_setBuf s j b hlen, hst]
    · have hkeep : s.setBuf j b = s := by rw [State.setBuf, List.set_eq_of_length_le (Nat.le_of_not_lt hlen)]
      rw [hkeep]
  · rw [buf_setBuf_ne s i j b hj]

theorem segCount_pos (multi : Bool) : 0 < segCount multi := by cases multi <;> decide

/-! ## Consequences -/

namespace Inv
variable {s : State} (h : Inv s)
include h

theorem snap_ne_delay_of_active (ha : s.active = true) : s.snap ≠ .delay := by
  obtain ⟨-, ⟨-, -, hdelay, -⟩, -⟩ := h
  intro hsnap
  simp [(hdelay hsnap).1] at ha

theorem snap_ne_delay_of_engine (he : cfgEngine s.cfg ≠ .serial) : s.snap ≠ .delay := by
  obtain ⟨-, ⟨-, -, hdelay, -⟩, -⟩ := h
  exact fun hsnap => he (hdelay hsnap).2.2

theorem nBufs_le_length (hi : s.initialised = true) : s.nBufs ≤ s.bufs.length := by
  obtain ⟨hn, -, -⟩ := ring_in_store h hi
  obtain ⟨⟨-, hlen, -⟩, -⟩ := h
  rwa [hlen]

theorem ringHolds (hi : s.initialised = true) : ∃ used, RingHolds s used := by
  obtain ⟨-, -, -, hring, -⟩ := h
  exact (ringShape_iff s).1 (hring hi)

theorem tail_lt_length (hi : s.initialised = true) : s.tail.toNat < s.bufs.length := by
  obtain ⟨-, -, htail⟩ := ring_in_store h hi
  exact Nat.lt_of_lt_of_le htail (h.nBufs_le_length hi)

/-- Only the raster engine latches JPEG (R252). -/
theorem not_jpeg_of_engine (hi : s.initialised = true) (he : cfgEngine s.cfg ≠ .raster) : cfgPixFmt s.cfg ≠ .jpeg := by
  obtain ⟨-, ⟨-, -, -, hlegal⟩, -⟩ := h
  have hc := (hlegal hi).1
  simp only [configLegal, Bool.and_eq_true, Bool.or_eq_true, decide_eq_true_eq] at hc
  exact hc.2.resolve_right he

theorem woff_le (hi : s.initialised = true) (hj : cfgPixFmt s.cfg = .jpeg) (i : BitVec 8) :
    (s.buf i).woff.toNat ≤ s.prm.cap := by
  obtain ⟨-, -, -, -, -, ⟨-, -, -, -, -, hwoff⟩, -⟩ := h
  exact buf_woff_le (hwoff hi hj) i

/-- The buffer at `tail` in the middle of a raster frame (R225). -/
theorem tail_writing_of_inFrame (ha : s.active = true) (he : cfgEngine s.cfg = .raster) (hf : s.inFrame = true) :
    (s.buf s.tail).st = .writing := by
  obtain ⟨-, -, -, -, ⟨-, hraster, -⟩, -⟩ := h
  exact hraster ha he hf

/-- The buffer at `tail` in the middle of a serial frame (R161). -/
theorem tail_writing_of_midFrame (ha : s.active = true) (he : cfgEngine s.cfg = .serial) (hf : ¬ AtFrameStart s) :
    (s.buf s.tail).st = .writing := by
  obtain ⟨-, -, -, -, ⟨hserial, -⟩, -⟩ := h
  exact hserial ha he (not_and_or.1 hf)

/-! ## The pool -/

/-- Writing one entry of the descriptor file, the cursors and the token. -/
theorem writeEntry {i : BitVec 8} {b : Buf} {head tail : BitVec 8} {wrValid : Bool}
    (hwoff : s.initialised = true → cfgPixFmt s.cfg = .jpeg → b.woff.toNat ≤ s.prm.cap)
    (hring' : RingInv { s with bufs := s.bufs.set i.toNat b, head := head, tail := tail, wrValid := wrValid })
    (hengine' : EngineInv { s with bufs := s.bufs.set i.toNat b, head := head, tail := tail, wrValid := wrValid }) :
    Inv { s with bufs := s.bufs.set i.toNat b, head := head, tail := tail, wrValid := wrValid } := by
  obtain ⟨⟨hprm, hlen, hpending⟩, hsession, hquiet, -, -, ⟨hcapture, hpid, hseg, hrr, hrecords, hcursors⟩, hwf⟩ := h
  refine ⟨⟨hprm, (List.length_set ..).trans hlen, hpending⟩, hsession, hquiet, hring', hengine',
    ⟨fun hc => CaptureFits.congr (s := s) (hcapture hc) rfl, hpid, hseg, hrr, hrecords, fun hi hj c hc => ?_⟩, hwf⟩
  rcases List.mem_or_eq_of_mem_set hc with hc | rfl
  · exact hcursors hi hj c hc
  · exact hwoff hi hj

/-- The engine's hold, when the buffer at `tail` keeps being WRITING or not, and stays FREE if it was. -/
theorem engineInv_of_tail {bufs : List Buf} {head : BitVec 8}
    (hwriting : (bufs.getD s.tail.toNat Buf.reset).st = .writing ↔ (s.buf s.tail).st = .writing)
    (hfree : (s.buf s.tail).st = .free → (bufs.getD s.tail.toNat Buf.reset).st = .free) :
    EngineInv { s with bufs := bufs, head := head } := by
  obtain ⟨-, -, -, -, ⟨hserial, hraster, htoken, hdelay⟩, -⟩ := h
  exact ⟨fun ha he hf => hwriting.2 (hserial ha he hf), fun ha he hf => hwriting.2 (hraster ha he hf),
    fun ha he hw => htoken ha he (hwriting.1 hw), fun hsnap => hfree (hdelay hsnap)⟩

/-- Writing an entry without changing its owner: the write cursor and the flags of a buffer (R163, R184, R190, R192). -/
theorem setBuf {i : BitVec 8} {b : Buf} (hst : b.st = (s.buf i).st)
    (hwoff : s.initialised = true → cfgPixFmt s.cfg = .jpeg → b.woff.toNat ≤ s.prm.cap) : Inv (s.setBuf i b) := by
  have hsame (j : BitVec 8) : ((s.setBuf i b).buf j).st = (s.buf j).st := st_setBuf s hst j
  refine h.writeEntry (head := s.head) (tail := s.tail) (wrValid := s.wrValid) hwoff (fun hi => ?ring) ?engine
  case ring =>
    obtain ⟨-, -, -, hring, -⟩ := h
    exact ringShape_of_st_eq (t := s.setBuf i b) (hring hi) rfl rfl rfl hsame
  case engine =>
    have htail := hsame s.tail
    exact h.engineInv_of_tail (bufs := (s.setBuf i b).bufs) (head := s.head) (by rw [← htail]; rfl)
      fun hfree => htail.trans hfree

theorem clearBuf (i : BitVec 8) : Inv (clearBuf s i) := h.setBuf rfl fun _ _ => Nat.zero_le _

/-- The engine's hold, when the consumer takes or returns the buffer at `head`: in a full ring that is the buffer at
`tail` too, which then is neither WRITING nor FREE. -/
theorem engineInv_of_head {b : Buf} {head : BitVec 8}
    (hold : (s.buf s.head).st = .readable ∨ (s.buf s.head).st = .held) (hnew : b.st ≠ .writing) :
    EngineInv { s with bufs := s.bufs.set s.head.toNat b, head := head } := by
  by_cases htail : s.tail = s.head
  · have hlen : s.head.toNat < s.bufs.length :=
      lt_length_of_st_ne_free (by rcases hold with hst | hst <;> simp [hst])
    have hbuf : (s.bufs.set s.head.toNat b).getD s.tail.toNat Buf.reset = b := by
      rw [htail]
      exact buf_setBuf s s.head b hlen
    refine h.engineInv_of_tail ?_ ?_ <;> rw [hbuf, htail]
    · rcases hold with hst | hst <;> simp [hst, hnew]
    · rcases hold with hst | hst <;> simp [hst]
  · have hbuf : (s.bufs.set s.head.toNat b).getD s.tail.toNat Buf.reset = s.buf s.tail :=
      buf_setBuf_ne s s.head s.tail b htail
    refine h.engineInv_of_tail ?_ ?_ <;> rw [hbuf]
    exact id

section
variable (hi : s.initialised = true)
include hi

/-- Taking the READABLE buffer at `head` (R135, R264). -/
theorem holdHead (hst : (s.buf s.head).st = .readable) : Inv (holdHead s) := by
  obtain ⟨used, hring⟩ := h.ringHolds hi
  exact h.writeEntry (head := s.head) (tail := s.tail) (wrValid := s.wrValid) (fun hi hj => h.woff_le hi hj s.head)
    (fun _ => (hring.holdHead (h.nBufs_le_length hi) hst).ringShape) (h.engineInv_of_head (.inl hst) nofun)

/-- Returning the HELD buffer at `head` (R139, R259, R264). -/
theorem freeHead (hst : (s.buf s.head).st = .held) : Inv (freeHead s) := by
  obtain ⟨used, hring⟩ := h.ringHolds hi
  exact h.writeEntry (tail := s.tail) (wrValid := s.wrValid) (fun hi hj => h.woff_le hi hj s.head)
    (fun _ => (hring.freeHead (h.nBufs_le_length hi) hst).ringShape) (h.engineInv_of_head (.inr hst) nofun)

theorem returnHeld : Inv (returnHeld s) := by
  unfold Machine.returnHeld
  split
  · exact h.freeHead hi ‹_›
  · exact h

/-- Taking the FREE buffer at `tail` (R132, R225). -/
theorem takeTail (hst : (s.buf s.tail).st = .free) (hsnap : s.snap ≠ .delay) : Inv (takeTail s) := by
  obtain ⟨used, hring⟩ := h.ringHolds hi
  have hwriting : ((Machine.takeTail s).buf s.tail).st = .writing :=
    congrArg Buf.st (buf_setBuf s s.tail ⟨.writing, 0#32, 0#3⟩ (h.tail_lt_length hi))
  exact h.writeEntry (head := s.head) (tail := s.tail) (fun _ _ => Nat.zero_le _)
    (fun _ => (hring.takeTail (h.nBufs_le_length hi) hst).ringShape)
    ⟨fun _ _ _ => hwriting, fun _ _ _ => hwriting, fun _ _ _ => rfl, fun hd => absurd hd hsnap⟩

/-- Committing the WRITING buffer at `tail` at the end of a frame (R134). -/
theorem commit (hst : (s.buf s.tail).st = .writing)
    (hserial : s.active = true → cfgEngine s.cfg = .serial → AtFrameStart s)
    (hraster : s.active = true → cfgEngine s.cfg = .raster → s.inFrame = false) (checked : Bool) :
    Inv (commit checked s) := by
  obtain ⟨used, hring⟩ := h.ringHolds hi
  have hlen := h.nBufs_le_length hi
  have hshape : RingShape (Machine.commit checked s) := (hring.commit hlen hst checked).ringShape
  have htail := hring.commit_tail_st hlen hst checked
  have hsnap : s.snap ≠ .delay := by
    obtain ⟨-, -, -, -, ⟨-, -, -, hdelay⟩, -⟩ := h
    intro hsnap
    simp [hdelay hsnap] at hst
  rw [commit_eq] at hshape htail ⊢
  refine (h.writeEntry (i := s.tail) (b := committedBuf checked s) (head := s.head) (tail := after s s.tail)
    (wrValid := false) (fun hi hj => h.woff_le hi hj s.tail) (fun _ => hshape)
    ⟨fun ha he hf => ?_, fun ha he hf => ?_, fun _ _ hw => absurd hw htail, fun hd => absurd hd hsnap⟩).congr rfl
  · exact absurd (hserial ha he) (not_and_or.2 hf)
  · exact absurd hf (by simp [hraster ha he])

end

/-! ## The store, the pending records and the engines' registers -/

theorem writeStore {m : Memory} (hm : Memory.wf m = true) : Inv { s with fb := m } := by
  obtain ⟨hsizes, hsession, hquiet, hring, hengine, ⟨hcapture, hbounds⟩, -⟩ := h
  exact ⟨hsizes, hsession, hquiet, hring, hengine,
    ⟨fun hc => CaptureFits.congr (s := s) (hcapture hc) rfl, hbounds⟩, hm⟩

theorem wf_fb : Memory.wf s.fb = true := by
  obtain ⟨-, -, -, -, -, -, hwf⟩ := h
  exact hwf

theorem writeRange (a : Nat) (bytes : List Byte) : Inv { s with fb := Memory.setRange s.fb a bytes } :=
  h.writeStore (wf_setRange _ _ _ h.wf_fb)

/-- A record is made only while capture is active, and names bytes of the store (R187, R226). -/
theorem setPending {ch : Nat} {t : Option Transfer} (hactive : s.active = false → t = none)
    (hin : ∀ r, t = some r → inStore s.prm r.buf r.off r.bytes.length = true) : Inv (s.setPending ch t) := by
  obtain ⟨⟨hprm, hlen, hpending⟩, hsession, hquiet, hring, hengine,
    ⟨hcapture, hpid, hseg, hrr, hrecords, hcursors⟩, hwf⟩ := h
  refine ⟨⟨hprm, hlen, (List.length_set ..).trans hpending⟩, hsession, fun ha => ?quiet, hring, hengine,
    ⟨fun hc => CaptureFits.congr (s := s) (hcapture hc) rfl, hpid, hseg, hrr, fun r hr => ?records, hcursors⟩, hwf⟩
  case quiet =>
    obtain ⟨hpid, hseg, hline, hinFrame, hdrop, hreqEn, hrr, hnone⟩ := hquiet ha
    refine ⟨hpid, hseg, hline, hinFrame, hdrop, hreqEn, hrr, fun r hr => ?_⟩
    rcases List.mem_or_eq_of_mem_set hr with hr | rfl
    · exact hnone r hr
    · exact hactive ha
  case records =>
    rcases List.mem_or_eq_of_mem_set hr with hr | hr
    · exact hrecords r hr
    · exact hin r hr.symm

/-- Landing a pending transfer (R194). -/
theorem land {t : State} {ch : Nat} {r : Transfer} (hland : land s ch r = .ok t) : Inv t := by
  obtain ⟨-, rfl⟩ := land_ok hland
  exact (h.writeRange (fbKey r.buf.toNat r.off) r.bytes).setPending (fun _ => rfl) nofun

section
variable (ha : s.active = true)
include ha

/-- The packet engine's counters (R31), in a capture. -/
theorem setPacketCounters {pid : BitVec 12} {seg : BitVec 3} (hpid : pid.toNat < s.prm.segPkts)
    (hseg : seg.toNat < segCount s.multi)
    (htail : cfgEngine s.cfg = .serial → pid ≠ 0#12 ∨ seg ≠ 0#3 → (s.buf s.tail).st = .writing) :
    Inv { s with expPid := pid, expSeg := seg } := by
  obtain ⟨hsizes, hsession, -, hring, ⟨-, hengine⟩, ⟨hcapture, -, -, hbounds⟩, hwf⟩ := h
  exact ⟨hsizes, hsession, fun hq => absurd ha (by simp [show s.active = false from hq]), hring,
    ⟨fun _ he hf => htail he hf, hengine⟩,
    ⟨fun hc => CaptureFits.congr (s := s) (hcapture hc) rfl, hpid, hseg, hbounds⟩, hwf⟩

/-- The line engine's registers (R33, R34, R36), in a capture. -/
theorem setLineRegs {line : Word} {inFrame drop reqEn : Bool} {rr : BitVec 8} (hrr : rr.toNat < s.prm.nch)
    (htail : cfgEngine s.cfg = .raster → inFrame = true → (s.buf s.tail).st = .writing) :
    Inv { s with line := line, inFrame := inFrame, drop := drop, reqEn := reqEn, rr := rr } := by
  obtain ⟨hsizes, hsession, -, hring, ⟨hserial, -, hengine⟩, ⟨hcapture, hpid, hseg, -, hbounds⟩, hwf⟩ := h
  exact ⟨hsizes, hsession, fun hq => absurd ha (by simp [show s.active = false from hq]), hring,
    ⟨hserial, fun _ he hf => htail he hf, hengine⟩,
    ⟨fun hc => CaptureFits.congr (s := s) (hcapture hc) rfl, hpid, hseg, hrr, hbounds⟩, hwf⟩

end

theorem rr_lt : s.rr.toNat < s.prm.nch := by
  obtain ⟨-, -, -, -, -, ⟨-, -, -, hrr, -⟩, -⟩ := h
  exact hrr

theorem counters_pos : 0 < s.prm.nmax ∧ 0 < s.prm.segPkts ∧ 0 < s.prm.nch := by
  obtain ⟨⟨hprm, -⟩, -⟩ := h
  exact pos_of_params_valid hprm

/-- The streaming request of a JPEG capture (R183, R193). -/
theorem setReqEn {reqEn : Bool} (ha : s.active = true) : Inv { s with reqEn := reqEn } :=
  h.setLineRegs (line := s.line) (drop := s.drop) ha h.rr_lt fun he hf => h.tail_writing_of_inFrame ha he hf

/-! ## Abort and session control -/

/-- `DoAbort` clears what it may leave of a capture, and keeps the pool (R226). -/
theorem doAbort : Inv (doAbort s) := by
  obtain ⟨-, hsegPkts, hnch⟩ := h.counters_pos
  obtain ⟨⟨hprm, hlen, hpending⟩, ⟨hpower, -, hdelay, hlegal⟩, -, hring, ⟨-, -, -, hfree⟩,
    ⟨hcapture, -, -, -, -, hcursors⟩, hwf⟩ := h
  have hnone (t : Option Transfer) (ht : t ∈ (Machine.doAbort s).pending) : t = none := by
    obtain ⟨-, -, rfl⟩ := List.mem_map.1 ht
    rfl
  refine ⟨⟨hprm, hlen, (List.length_map ..).trans hpending⟩,
    ⟨fun hi => ⟨rfl, (hpower hi).2⟩, fun _ => rfl, fun hd => ⟨rfl, rfl, (hdelay hd).2.2⟩, hlegal⟩,
    fun _ => ⟨rfl, rfl, rfl, rfl, rfl, rfl, rfl, hnone⟩, hring, ⟨nofun, nofun, nofun, hfree⟩,
    ⟨fun hc => ?capture, hsegPkts, segCount_pos _, hnch, fun t ht => absurd (hnone _ ht) nofun, hcursors⟩,
    wf_cancelTransfers _ _ _ _ hwf⟩
  case capture =>
    exact CaptureFits.congr (s := s) (hcapture (.inr (hc.resolve_left nofun))) rfl

theorem abortIfActive : Inv (abortIfActive s) := by
  unfold Machine.abortIfActive
  split
  · exact h.doAbort
  · exact h

end Inv

end Sys2Proof.Machine
end

section
/-! PROOFS. The invariant through session control and the snapshot (40_pool_ops R131, 44_snapshot_control R250, R253,
R256, R259 to R267). -/

namespace Sys2Proof.Machine

/-! ## Empty pools -/

theorem resetPool_st_free {s : State} (hlen : s.nBufs ≤ s.bufs.length) {i : BitVec 8} (hi : i.toNat < s.nBufs) :
    ((resetPool s).buf i).st = .free := by
  have hi' : i.toNat < (cfgNBuffers s.cfg).toNat := hi
  rw [resetPool_eq s hlen, State.buf, poolReset, List.getD_append _ _ _ _ (by simpa using hi')]
  simp [hi']

theorem freeAll_st_free (s : State) (i : BitVec 8) : ((freeAll s).buf i).st = .free := by
  by_contra hne
  have hlen := lt_length_of_st_ne_free hne
  apply hne
  rw [State.buf, List.getD_eq_getElem _ _ hlen]
  simp [freeAll, Buf.reset]

/-! ## Burst derivation -/

@[simp] theorem geometryValid_deriveBurst (s : State) : geometryValid (deriveBurst s) = geometryValid s := by
  rw [deriveBurst_eq]
  rfl

/-- `DeriveBurst` reads none of the registers it writes. -/
theorem deriveBurst_burstsDerived (s : State) : deriveBurst (burstsDerived s) = deriveBurst s := rfl

/-- The registers `DeriveBurst` leaves are the ones it derives (R181). -/
theorem burstsDerived_deriveBurst (s : State) : BurstsDerived (deriveBurst s) := by
  have hagain : deriveBurst (deriveBurst s) = deriveBurst s :=
    (congrArg deriveBurst (deriveBurst_eq s)).trans (deriveBurst_burstsDerived s)
  rw [BurstsDerived, hagain]
  exact ⟨rfl, rfl, rfl, rfl, rfl⟩

theorem captureFits_deriveBurst {s : State} (hgeometry : geometryValid s = true) : CaptureFits (deriveBurst s) :=
  ⟨(geometryValid_deriveBurst s).trans hgeometry, burstsDerived_deriveBurst s⟩

/-! ## A block without a capture -/

/-- A legal configuration uses a buffer (R252). -/
theorem nBufs_pos_of_configLegal {p : Params} {c : BitVec 160} (h : configLegal p c = true) :
    0 < (cfgNBuffers c).toNat := by
  simp only [configLegal, Bool.and_eq_true, decide_eq_true_eq] at h
  obtain ⟨⟨⟨⟨⟨⟨hn, -⟩, -⟩, -⟩, -⟩, -⟩, -⟩ := h
  exact Nat.pos_of_ne_zero fun hzero => hn (BitVec.eq_of_toNat_eq hzero)

/-- Neither capturing nor about to (R260): the premise of what the invariant says of a capture's geometry fails. -/
theorem not_capturing {s : State} (ha : s.active = false) (hsnap : s.snap ≠ .delay) :
    ¬ (s.active = true ∨ s.snap = .delay) := by
  simp [ha, hsnap]

theorem engineInv_of_not_capturing {s : State} (hc : ¬ (s.active = true ∨ s.snap = .delay)) : EngineInv s := by
  obtain ⟨ha, hsnap⟩ := not_or.1 hc
  exact ⟨fun hact => absurd hact ha, fun hact => absurd hact ha, fun hact => absurd hact ha, fun hd => absurd hd hsnap⟩

namespace Inv
variable {s : State} (h : Inv s)
include h

section
variable (hc : ¬ (s.active = true ∨ s.snap = .delay))
include hc

/-- `SETUP_BUFFERS` (R131, R260). -/
theorem resetPool : Inv (resetPool s) := by
  have hlength := fun hi => h.nBufs_le_length hi
  have hring := fun hi => ring_in_store h hi
  obtain ⟨⟨hprm, hlen, hpending⟩, hsession, hquiet, -, -, ⟨-, hpid, hseg, hrr, hrecords, hcursors⟩, hwf⟩ := h
  refine ⟨⟨hprm, (freeFirst_length ..).trans hlen, hpending⟩, hsession, hquiet, fun hi => ?ring,
    engineInv_of_not_capturing hc,
    ⟨fun hc' => absurd hc' hc, hpid, hseg, hrr, hrecords, fun hi hj b hb => ?cursors⟩, hwf⟩
  case ring =>
    obtain ⟨-, hhead, -⟩ := hring hi
    exact ringShape_of_free (s := Machine.resetPool s) (Nat.zero_lt_of_lt hhead) rfl rfl
      fun i hlt => resetPool_st_free (hlength hi) hlt
  case cursors =>
    rcases mem_freeFirst hb with rfl | hb
    · exact Nat.zero_le _
    · exact hcursors hi hj b hb

/-- `DeriveBurst` before a capture (R181, R260). -/
theorem deriveBurst : Inv (deriveBurst s) := by
  obtain ⟨hsizes, hsession, hquiet, hring, hengine, ⟨-, hbounds⟩, hwf⟩ := h
  rw [deriveBurst_eq]
  exact ⟨hsizes, hsession, hquiet, hring, hengine, ⟨fun hc' => absurd hc' hc, hbounds⟩, hwf⟩

end

/-- `DEINIT` of an inactive session (R253). -/
theorem endSession (ha : s.active = false) (hsnap : s.snap = .idle) :
    Inv { freeAll s with resyncPending := false, initialised := false } := by
  obtain ⟨⟨hprm, hlen, hpending⟩, -, hquiet, -, -, ⟨-, hpid, hseg, hrr, hrecords, -⟩, hwf⟩ := h
  have hc : ¬ (s.active = true ∨ s.snap = .delay) := not_capturing ha (by simp [hsnap])
  exact ⟨⟨hprm, (List.length_map ..).trans hlen, hpending⟩,
    ⟨fun _ => ⟨ha, hsnap⟩, nofun, fun hd => absurd (.inr hd) hc, nofun⟩, hquiet, nofun, engineInv_of_not_capturing hc,
    ⟨fun hc' => absurd hc' hc, hpid, hseg, hrr, hrecords, nofun⟩, hwf⟩

/-- Latching a legal configuration (R250, R251). -/
theorem latchConfig {c : BitVec 160} (hlegal : configLegal s.prm c = true) : Inv (latchConfig c s) := by
  obtain ⟨-, hsegPkts, hnch⟩ := h.counters_pos
  obtain ⟨⟨hprm, hlen, hpending⟩, -, -, -, -, -, hwf⟩ := h
  have hnone (t : Option Transfer) (ht : t ∈ (Machine.latchConfig c s).pending) : t = none := by
    obtain ⟨-, -, rfl⟩ := List.mem_map.1 ht
    rfl
  refine ⟨⟨hprm, (List.length_map ..).trans hlen, (List.length_map ..).trans hpending⟩,
    ⟨nofun, nofun, nofun, fun _ => ⟨hlegal, rfl⟩⟩, fun _ => ⟨rfl, rfl, rfl, rfl, rfl, rfl, rfl, hnone⟩, fun _ => ?ring,
    ⟨nofun, nofun, nofun, nofun⟩,
    ⟨fun hc => absurd hc (not_capturing rfl nofun), hsegPkts, segCount_pos _, hnch,
      fun t ht => absurd (hnone _ ht) nofun, fun _ _ b hb => ?cursors⟩, hwf⟩
  case ring => exact ringShape_of_free (nBufs_pos_of_configLegal hlegal) rfl rfl fun i _ => freeAll_st_free s i
  case cursors =>
    obtain ⟨-, -, rfl⟩ := List.mem_map.1 hb
    exact Nat.zero_le _

/-! ## The snapshot's state -/

theorem setSnapIdle : Inv { s with snap := .idle } := by
  obtain ⟨hsizes, ⟨hpower, hresync, -, hlegal⟩, hquiet, hring, ⟨hserial, hraster, htoken, -⟩, ⟨hcapture, hbounds⟩,
    hwf⟩ := h
  exact ⟨hsizes, ⟨fun hi => ⟨(hpower hi).1, rfl⟩, hresync, nofun, hlegal⟩, hquiet, hring,
    ⟨hserial, hraster, htoken, nofun⟩,
    ⟨fun hc => CaptureFits.congr (s := s) (hcapture (.inl (hc.resolve_right nofun))) rfl, hbounds⟩, hwf⟩

section
variable (hi : s.initialised = true)
include hi

theorem waiting : Inv (waiting s) := by
  obtain ⟨hsizes, ⟨-, hresync, -, hlegal⟩, hquiet, hring, ⟨hserial, hraster, htoken, -⟩, ⟨hcapture, hbounds⟩, hwf⟩ := h
  exact ⟨hsizes, ⟨fun hno => absurd (hi.symm.trans hno) nofun, hresync, nofun, hlegal⟩, hquiet, hring,
    ⟨hserial, hraster, htoken, nofun⟩,
    ⟨fun hc => CaptureFits.congr (s := s) (hcapture (.inl (hc.resolve_right nofun))) rfl, hbounds⟩, hwf⟩

/-- Entering the resync delay with a freshly reset pool (R228, R260). -/
theorem setSnapDelay (ha : s.active = false) (hresync : s.resyncPending = true) (he : cfgEngine s.cfg = .serial)
    (hfits : CaptureFits s) (hfree : (s.buf s.tail).st = .free) : Inv { s with snap := .delay } := by
  obtain ⟨hsizes, ⟨-, -, -, hlegal⟩, hquiet, hring, ⟨hserial, hraster, htoken, -⟩, ⟨-, hbounds⟩, hwf⟩ := h
  exact ⟨hsizes, ⟨fun hno => absurd (hi.symm.trans hno) nofun, fun _ => ha, fun _ => ⟨ha, hresync, he⟩, hlegal⟩, hquiet,
    hring, ⟨hserial, hraster, htoken, fun _ => hfree⟩, ⟨fun _ => hfits.congr rfl, hbounds⟩, hwf⟩

/-- Capture starts with clear counters and a FREE buffer at `tail`, and the snapshot waits for it (R260, R262, R267). -/
theorem waiting_startCapture (hfits : CaptureFits s) (hfree : (s.buf s.tail).st = .free) :
    Inv (Machine.waiting (startCapture s)) := by
  obtain ⟨-, hsegPkts, hnch⟩ := h.counters_pos
  obtain ⟨hsizes, ⟨-, -, -, hlegal⟩, -, hring, -, ⟨-, -, -, -, hbounds⟩, hwf⟩ := h
  refine ⟨hsizes, ⟨fun hno => absurd (hi.symm.trans hno) nofun, nofun, nofun, hlegal⟩, nofun, hring,
    ⟨fun _ _ hf => hf.elim (absurd rfl) (absurd rfl), nofun, fun _ _ hw => absurd (hfree.symm.trans hw) nofun, nofun⟩,
    ⟨fun _ => hfits.congr rfl, hsegPkts, segCount_pos _, hnch, hbounds⟩, hwf⟩

end

end Inv

/-! ## The wait loop -/

theorem Inv.describe {s t : State} {i : BitVec 8} (h : Inv s) (hd : describe i s = .ok t) : Inv t := by
  obtain ⟨size, jpegSize, draws, rfl⟩ := describe_ok hd
  exact h.congr rfl

section
variable {s t : State} (h : Inv s) (hi : s.initialised = true)
include h hi

/-- A finished frame is taken, and returned at once when it has overflown (R264). -/
theorem inv_of_finalize (hst : (s.buf s.head).st = .readable) (hf : finalize s = .ok t) : Inv t := by
  have hhold : Inv (holdHead s) := h.holdHead hi hst
  rcases finalize_ok hf with rfl | hdescribe
  · have hheld : ((holdHead s).buf (holdHead s).head).st = .held :=
      congrArg Buf.st (buf_setBuf s s.head _ (lt_length_of_st_ne_free (by simp [hst])))
    exact (hhold.freeHead hi hheld).congr rfl
  · exact hhold.describe hdescribe

/-- Each check of the wait loop (R263). -/
theorem inv_of_waitCheck (hw : waitCheck s = .ok t) : Inv t := by
  unfold waitCheck at hw
  split at hw
  case isTrue hst =>
    split at hw
    case h_1 u hu =>
      cases hw
      exact (inv_of_finalize h hi hst hu).setSnapIdle
    case h_2 => cases hw
  case isFalse =>
    split at hw
    · cases hw
      exact Inv.setSnapIdle (s := reject .wouldBlock s) (h.congr rfl)
    · split at hw <;> cases hw
      · exact Inv.setSnapIdle (s := reject .captureTimeout (doAbort s)) (h.doAbort.congr rfl)
      · exact h.congr rfl

/-- `StartCapture`, and the first check of the wait for it (R260, R262, R267). -/
theorem inv_of_enterWait_startCapture (hfits : CaptureFits s) (hfree : (s.buf s.tail).st = .free)
    (hw : enterWait (startCapture s) = .ok t) : Inv t :=
  inv_of_waitCheck (h.waiting_startCapture hi hfits hfree) hi hw

/-! ## The start of a snapshot -/

theorem resetPool_tail_st : ((resetPool s).buf (resetPool s).tail).st = .free := by
  obtain ⟨-, hhead, -⟩ := ring_in_store h hi
  exact resetPool_st_free (h.nBufs_le_length hi) (Nat.zero_lt_of_lt hhead)

/-- `Arm` of an inactive block (R228, R260). -/
theorem inv_of_arm (ha : s.active = false) (hsnap : s.snap ≠ .delay) (harm : arm s = .ok t) : Inv t := by
  have hreset : Inv (resetPool s) := h.resetPool (not_capturing ha hsnap)
  have hderive : Inv (deriveBurst (resetPool s)) := hreset.deriveBurst (not_capturing ha hsnap)
  have hframe : deriveBurst (resetPool s) = burstsDerived (resetPool s) := deriveBurst_eq _
  have hfree : ((deriveBurst (resetPool s)).buf (deriveBurst (resetPool s)).tail).st = .free := by
    rw [hframe]
    exact resetPool_tail_st h hi
  unfold arm at harm
  dsimp only at harm
  split at harm
  case isTrue =>
    cases harm
    exact hreset.congr rfl
  case isFalse hgeometry =>
    have hfits : CaptureFits (deriveBurst (resetPool s)) :=
      captureFits_deriveBurst (Bool.eq_true_of_not_eq_false hgeometry)
    have hi' : (deriveBurst (resetPool s)).initialised = true := by
      rw [hframe]
      exact hi
    split at harm
    case isTrue hresync =>
      cases harm
      obtain ⟨he, hpending⟩ := hresync
      have hdelay : Inv { deriveBurst (resetPool s) with snap := .delay } := by
        refine hderive.setSnapDelay hi' ?_ ?_ ?_ hfits hfree <;> rw [hframe]
        · exact ha
        · exact hpending
        · exact he
      exact hdelay.congr rfl
    case isFalse => exact inv_of_enterWait_startCapture hderive hi' hfits hfree harm

theorem inv_of_snapshotBody {flags : BitVec 8} (hsnap : s.snap ≠ .delay) (hb : snapshotBody flags s = .ok t) :
    Inv t := by
  have hreturn : Inv (returnHeld s) := h.returnHeld hi
  have hlatch : Inv { returnHeld s with nonblock := hasFlag flags flagNonblock, timeout := s.port.opw } :=
    hreturn.congr rfl
  have hi' : (returnHeld s).initialised = true := by
    rw [returnHeld_eq]
    exact hi
  have hsnap' : (returnHeld s).snap ≠ .delay := by
    rw [returnHeld_eq]
    exact hsnap
  unfold snapshotBody at hb
  dsimp only at hb
  split at hb
  case isTrue => exact inv_of_waitCheck (hlatch.waiting hi') hi' hb
  case isFalse ha =>
    exact inv_of_arm hlatch hi' ((returnHeld_active s).trans (Bool.eq_false_of_not_eq_true ha)) hsnap' hb

end

/-! ## The control instructions -/

section
variable {s t : State} (h : Inv s)
include h

/-- A command keeps what its body keeps: its refusal writes the answer alone. -/
theorem inv_of_command {refusal : Option Status} {body : State → State} (hc : command refusal s body = .next t)
    (hbody : refusal = none → Inv (body s)) : Inv t := by
  rcases command_next hc with ⟨e, -, rfl⟩ | ⟨hadmit, rfl⟩
  · exact h.congr rfl
  · exact hbody hadmit

theorem inv_of_execInit (hx : execInit s = .next t) : Inv t := by
  refine inv_of_command h hx fun _ => ?_
  unfold initBody
  split
  case isTrue => exact h.congr rfl
  case isFalse hlegal =>
    have habort : Inv (abortIfActive s) := h.abortIfActive
    have hprm : (abortIfActive s).prm = s.prm := by
      unfold abortIfActive
      split <;> rfl
    exact (habort.latchConfig (by rw [hprm]; exact Bool.eq_true_of_not_eq_false hlegal)).congr rfl

theorem inv_of_execDeinit (hx : execDeinit s = .next t) : Inv t := by
  refine inv_of_command h hx fun hadmit => ?_
  obtain ⟨-, hsnap⟩ := threadReady_of_admitThread hadmit
  have hsnap' : (abortIfActive s).snap = .idle := by
    unfold abortIfActive
    split <;> exact hsnap
  exact (h.abortIfActive.endSession (abortIfActive_active s) hsnap').congr rfl

theorem inv_of_execAbort (hx : execAbort s = .next t) : Inv t :=
  inv_of_command h (body := fun s => respond .ok none false (doAbort s)) hx fun _ => h.doAbort.congr rfl

theorem inv_of_execSnapshot {flags : BitVec 8} (hx : execSnapshot flags s = .next t) : Inv t := by
  unfold execSnapshot at hx
  split at hx
  case h_1 =>
    cases hx
    exact h.congr rfl
  case h_2 hadmit =>
    obtain ⟨hi, hsnap⟩ := threadReady_of_admitThread hadmit
    exact inv_of_snapshotBody h hi (by simp [hsnap]) (finish_next hx)

/-- A poll in DELAY starts the capture whose geometry and burst registers `Arm` has settled (R267). -/
theorem inv_of_execEvPoll (hx : execEvPoll s = .next t) : Inv t := by
  have hi (hsnap : s.snap ≠ .idle) : s.initialised = true := initialised_of_snap h hsnap
  unfold execEvPoll at hx
  split at hx
  case h_1 =>
    cases hx
    exact h
  case h_2 hsnap =>
    split at hx
    case isTrue =>
      obtain ⟨-, -, -, -, ⟨-, -, -, hdelay⟩, ⟨hcapture, -⟩, -⟩ := id h
      exact inv_of_enterWait_startCapture h (hi (by simp [hsnap])) (hcapture (.inr hsnap)) (hdelay hsnap)
        (finish_next hx)
    case isFalse =>
      cases hx
      exact h.congr rfl
  case h_3 hsnap => exact inv_of_waitCheck h (hi (by simp [hsnap])) (finish_next hx)

end

end Sys2Proof.Machine
end

section
/-! PROOFS. The invariant through the pool operations and the two engines (40_pool_ops R131 to R139, 41_packet_engine
R161 to R164, 42_line_engine R183 to R194), through every step, and along every run (40_pool_ops R140, R141). -/

namespace Sys2Proof.Machine

/-! ## The pool operations -/

/-- A producer command that is admitted finds a session without an engine (R112). -/
theorem producerReady_of_admitProducer {s : State} {legal : Bool} (h : admitProducer s legal = none) :
    ProducerReady s := by
  unfold admitProducer at h
  split at h
  · cases h
  · split at h
    · cases h
    · split at h
      · cases h
      · exact ⟨by simpa using ‹¬s.initialised = false›, by simpa using ‹¬cfgEngine s.cfg ≠ .none›⟩

section
variable {s t : State} (h : Inv s)
include h

theorem inv_of_execSetupBuffers (hx : execSetupBuffers s = .next t) : Inv t := by
  refine inv_of_command h hx fun hadmit => ?_
  obtain ⟨-, hsnap⟩ := threadReady_of_admitThread hadmit
  unfold setupBuffersBody
  split
  case isTrue => exact h.congr rfl
  case isFalse ha =>
    exact (h.resetPool (not_capturing (Bool.eq_false_of_not_eq_true ha) (by simp [hsnap]))).congr rfl

theorem inv_of_execGetHead {flags : BitVec 8} (hx : execGetHead flags s = .next t) : Inv t := by
  refine inv_of_command h hx fun hadmit => ?_
  obtain ⟨hi, -⟩ := threadReady_of_admitThread hadmit
  unfold getHeadBody
  split
  case isTrue hst =>
    split
    · exact h.congr rfl
    · exact (h.holdHead hi hst).congr rfl
  case isFalse => exact h.congr rfl

theorem inv_of_execFreeCurrent (hx : execFreeCurrent s = .next t) : Inv t := by
  refine inv_of_command h hx fun hadmit => ?_
  obtain ⟨hi, -⟩ := threadReady_of_admitThread hadmit
  unfold freeCurrentBody
  split
  case isTrue hst => exact (h.freeHead hi hst).congr rfl
  case isFalse => exact h.congr rfl

theorem inv_of_execAcquire {flags : BitVec 8} (hx : execAcquire flags s = .next t) : Inv t := by
  refine inv_of_command h hx fun hadmit => ?_
  obtain ⟨hi, he⟩ := producerReady_of_admitProducer hadmit
  unfold acquireBody
  split
  case isTrue hst =>
    split
    · exact h.congr rfl
    · exact (h.takeTail hi hst (h.snap_ne_delay_of_engine (by simp [he]))).congr rfl
  case isFalse => exact h.congr rfl

theorem inv_of_execRelease {flags : BitVec 8} (hx : execRelease flags s = .next t) : Inv t := by
  refine inv_of_command h hx fun hadmit => ?_
  obtain ⟨hi, he⟩ := producerReady_of_admitProducer hadmit
  unfold releaseBody
  split
  case isTrue => exact h.congr rfl
  case isFalse hst =>
    split
    · exact h.congr rfl
    · exact (h.commit hi (not_not.1 hst) (fun _ hs => absurd (he.symm.trans hs) nofun)
        (fun _ hr => absurd (he.symm.trans hr) nofun) _).congr rfl

theorem inv_of_execResetBuf {idx : BitVec 8} (hx : execResetBuf idx s = .next t) : Inv t := by
  refine inv_of_command h hx fun _ => ?_
  unfold resetBufBody
  split
  · exact h.congr rfl
  · exact (h.clearBuf idx).congr rfl

end

/-! ## The start of a frame -/

/-- `FrameStartBuffer` in a capture (R225): a buffer it gives is at `tail` and WRITING. -/
theorem inv_of_frameStartBuffer {s t : State} (h : Inv s) (ha : s.active = true) (hf : frameStartBuffer s = some t) :
    Inv t ∧ (t.buf t.tail).st = .writing := by
  have hi : s.initialised = true := initialised_of_active h ha
  have hlen := h.tail_lt_length hi
  unfold frameStartBuffer at hf
  split at hf
  case isTrue hrestart =>
    cases hf
    exact ⟨h.clearBuf s.tail, (congrArg Buf.st (buf_setBuf s s.tail _ hlen)).trans hrestart.1⟩
  case isFalse =>
    split at hf
    case isTrue hst =>
      cases hf
      exact ⟨h.takeTail hi hst (h.snap_ne_delay_of_active ha), congrArg Buf.st (buf_setBuf s s.tail _ hlen)⟩
    case isFalse => cases hf

/-! ## The packet engine -/

theorem st_setWoff (s : State) (i : BitVec 8) (w : Word) (j : BitVec 8) :
    ((setWoff s i w).buf j).st = (s.buf j).st :=
  st_setBuf s (b := { s.buf i with woff := w }) rfl j

/-- A serial capture that holds the buffer at `tail`: a packet may be placed. -/
structure Placing (s : State) : Prop where
  inv : Inv s
  active : s.active = true
  engine : cfgEngine s.cfg = .serial
  tail : (s.buf s.tail).st = .writing

namespace Placing
variable {s t : State} (h : Placing s)
include h

theorem place {pid : BitVec 12} {pay : List Byte} (hp : place pid pay s = .ok t) : Placing t := by
  unfold Machine.place at hp
  split at hp
  case h_2 => cases hp
  case h_1 u hu =>
    obtain ⟨-, rfl⟩ := fbWrite_ok hu
    cases hp
    have hi : s.initialised = true := initialised_of_active h.inv h.active
    have hnot : cfgPixFmt s.cfg ≠ .jpeg := h.inv.not_jpeg_of_engine hi (by simp [h.engine])
    refine ⟨(h.inv.writeRange _ _).setBuf rfl fun _ hj => absurd hj hnot, h.active, h.engine, ?_⟩
    exact (st_setWoff _ s.tail _ s.tail).trans h.tail

/-- `Advance` (R164): the next packet, the next segment, or the commit of the frame. -/
theorem advancePacket : Inv (advancePacket s) := by
  obtain ⟨h, ha, he, htail⟩ := h
  have hi : s.initialised = true := initialised_of_active h ha
  have hpos := h.counters_pos
  have hbounds : s.expPid.toNat < s.prm.segPkts ∧ s.expSeg.toNat < segCount s.multi ∧ s.prm.segPkts ≤ 4095 := by
    obtain ⟨⟨hprm, -⟩, -, -, -, -, ⟨-, hpid, hseg, -⟩, -⟩ := id h
    simp only [Params.valid, Bool.and_eq_true, decide_eq_true_eq] at hprm
    omega
  obtain ⟨hpid, hseg, hmax⟩ := hbounds
  have hsegMax : segCount s.multi ≤ 4 := by cases s.multi <;> decide
  unfold Machine.advancePacket
  split
  case isTrue =>
    split
    case isTrue =>
      have hstart : Inv { s with expPid := 0#12, expSeg := 0#3 } :=
        h.setPacketCounters ha hpos.2.1 (segCount_pos _) fun _ hmid => hmid.elim (absurd rfl) (absurd rfl)
      exact hstart.commit hi htail (fun _ _ => ⟨rfl, rfl⟩) (fun _ hr => absurd (he.symm.trans hr) nofun) true
    case isFalse hlast =>
      refine h.setPacketCounters ha hpos.2.1 ?_ fun _ _ => htail
      rw [BitVec.toNat_add, BitVec.toNat_ofNat]
      omega
  case isFalse hlast =>
    refine h.setPacketCounters (seg := s.expSeg) ha ?_ hseg fun _ _ => htail
    rw [BitVec.toNat_add, BitVec.toNat_ofNat]
    omega

theorem acceptPacket {pid : BitVec 12} {pay : List Byte} (hp : acceptPacket pid pay s = .ok t) : Inv t := by
  unfold Machine.acceptPacket at hp
  split at hp
  case h_1 u hu =>
    cases hp
    exact (h.place hu).advancePacket
  case h_2 => cases hp

end Placing

section
variable {s t : State} (h : Inv s)
include h

/-- Steps 2 to 5 of R161. -/
theorem inv_of_packetSteps {d : Packet} {pay : List Byte} (ha : s.active = true) (he : cfgEngine s.cfg = .serial)
    (hp : packetSteps d pay s = .ok t) : Inv t := by
  unfold packetSteps at hp
  split at hp
  case isTrue =>
    cases hp
    exact h
  split at hp
  case isTrue =>
    cases hp
    obtain ⟨-, -, -, -, ⟨hserial, -⟩, ⟨-, -, hseg, -⟩, -⟩ := id h
    exact h.setPacketCounters (seg := s.expSeg) ha h.counters_pos.2.1 hseg fun he hmid =>
      hserial ha he (.inr (hmid.resolve_left (absurd rfl)))
  split at hp
  case isTrue =>
    cases hp
    exact Inv.doAbort (s := traceLabel .syncLost s) (h.congr rfl)
  split at hp
  case isTrue =>
    split at hp
    case h_1 =>
      cases hp
      exact Inv.doAbort (s := traceLabel .noBuffer s) (h.congr rfl)
    case h_2 u hu =>
      obtain ⟨hinv, htail⟩ := inv_of_frameStartBuffer h ha hu
      obtain ⟨bufs, wrValid, rfl⟩ := frameStartBuffer_some hu
      exact Placing.acceptPacket ⟨hinv, ha, he, htail⟩ hp
  case isFalse hmid => exact Placing.acceptPacket ⟨h, ha, he, h.tail_writing_of_midFrame ha he hmid⟩ hp

theorem inv_of_execEvPkt (hx : execEvPkt s = .next t) : Inv t := by
  unfold execEvPkt at hx
  split at hx
  case isTrue =>
    cases hx
    exact h
  case isFalse hacts =>
    simp only [ne_eq, not_or, not_not, Bool.not_eq_false] at hacts
    obtain ⟨he, ha⟩ := hacts
    split at hx
    case isTrue => cases hx
    case isFalse =>
      have hbody := finish_next hx
      unfold packetBody at hbody
      split at hbody
      case h_1 =>
        cases hbody
        exact h
      case h_2 => exact inv_of_packetSteps h ha he hbody
      case h_3 => exact inv_of_packetSteps h ha he hbody

/-! ## The line engine -/

/-- `EV_SOF` (R183). -/
theorem inv_of_execEvSof {throttleDrop : Bool} (hx : execEvSof throttleDrop s = .next t) : Inv t := by
  unfold execEvSof at hx
  split at hx
  case isTrue =>
    cases hx
    exact h
  case isFalse hacts =>
    simp only [ne_eq, not_or, not_not, Bool.not_eq_false] at hacts
    obtain ⟨-, ha⟩ := hacts
    split at hx
    case h_1 =>
      cases hx
      exact Inv.doAbort (s := traceLabel .noBuffer s) (h.congr rfl)
    case h_2 u hu =>
      obtain ⟨hinv, htail⟩ := inv_of_frameStartBuffer h ha hu
      obtain ⟨bufs, wrValid, rfl⟩ := frameStartBuffer_some hu
      cases hx
      have hregs (inFrame reqEn : Bool) := hinv.setLineRegs (line := 0#32) (inFrame := inFrame) (drop := throttleDrop)
        (reqEn := reqEn) ha h.rr_lt fun _ _ => htail
      unfold startFrame
      dsimp only
      split
      · split
        · exact (hregs false s.reqEn).congr rfl
        · exact (hregs true true).congr rfl
      · exact (hregs true s.reqEn).congr rfl

end

/-- A capture of a pixel format by the raster engine, in the middle of a frame. -/
structure InRasterFrame (fmt : PixFmt) (s : State) : Prop where
  inv : Inv s
  active : s.active = true
  engine : cfgEngine s.cfg = .raster
  format : cfgPixFmt s.cfg = fmt
  inFrame : s.inFrame = true

namespace InRasterFrame
variable {fmt : PixFmt} {s t : State} (h : InRasterFrame fmt s)
include h

theorem initialised : s.initialised = true := initialised_of_active h.inv h.active

theorem tail_writing : (s.buf s.tail).st = .writing := h.inv.tail_writing_of_inFrame h.active h.engine h.inFrame

theorem tail_woff_le (hj : fmt = .jpeg) : (s.buf s.tail).woff.toNat ≤ s.prm.cap :=
  h.inv.woff_le h.initialised (h.format.trans hj) s.tail

/-- A register of the line engine moves on inside the frame. -/
theorem setLineRegs {line : Word} {drop : Bool} {rr : BitVec 8} (hrr : rr.toNat < s.prm.nch) :
    InRasterFrame fmt { s with line := line, drop := drop, rr := rr } :=
  ⟨h.inv.setLineRegs (inFrame := s.inFrame) (reqEn := s.reqEn) h.active hrr fun _ _ => h.tail_writing, h.active,
    h.engine, h.format, h.inFrame⟩

theorem countLines : InRasterFrame fmt { s with line := s.line + 1#32 } :=
  h.setLineRegs (drop := s.drop) h.inv.rr_lt

theorem fbWrite {off : Nat} {bytes : List Byte} (hw : fbWrite s s.tail off bytes = .ok t) : InRasterFrame fmt t := by
  obtain ⟨-, rfl⟩ := fbWrite_ok hw
  exact ⟨h.inv.writeRange _ _, h.active, h.engine, h.format, h.inFrame⟩

/-- The cursor and the flags of the buffer being written. -/
theorem setBuf {b : Buf} (hst : b.st = (s.buf s.tail).st)
    (hwoff : fmt = .jpeg → b.woff.toNat ≤ s.prm.cap) : InRasterFrame fmt (s.setBuf s.tail b) :=
  ⟨h.inv.setBuf hst fun _ hj => hwoff (h.format.symm.trans hj), h.active, h.engine, h.format, h.inFrame⟩

theorem leaveFrame : Inv { s with inFrame := false } :=
  h.inv.setLineRegs (line := s.line) (drop := s.drop) (reqEn := s.reqEn) h.active h.inv.rr_lt nofun

/-- Frame end (R189, R193): the frame is over, and its buffer is committed. -/
theorem endFrame : Inv (commit true { s with inFrame := false }) :=
  h.leaveFrame.commit h.initialised h.tail_writing (fun _ hs => absurd (h.engine.symm.trans hs) nofun) (fun _ _ => rfl)
    true

/-- `RasterFrameEnd` (R189). -/
theorem rasterFrameEnd : Inv (rasterFrameEnd s) := by
  unfold Machine.rasterFrameEnd
  dsimp only
  split
  · exact h.leaveFrame.clearBuf s.tail
  · have hflagged := h.setBuf
      (b := { s.buf s.tail with
        bflags := if s.dmaEn then setStored (s.buf s.tail).bflags flagInvalidate else (s.buf s.tail).bflags })
      rfl fun hj => h.tail_woff_le hj
    exact hflagged.endFrame

/-- The count of an in-window line (R184). -/
theorem countLine (hraster : fmt ≠ .jpeg) : Inv (countLine s) := by
  have hcounted : InRasterFrame fmt (setWoff s s.tail ((s.buf s.tail).woff + 1#32)) :=
    h.setBuf rfl fun hj => absurd hj hraster
  unfold Machine.countLine
  dsimp only
  split
  · exact hcounted.rasterFrameEnd
  · exact hcounted.inv

theorem setPending {ch : Nat} {r : Transfer} (hin : inStore s.prm r.buf r.off r.bytes.length = true) :
    InRasterFrame fmt (s.setPending ch (some r)) :=
  ⟨h.inv.setPending (fun ha => absurd (h.active.symm.trans ha) nofun) fun _ hr => Option.some.inj hr ▸ hin, h.active,
    h.engine, h.format, h.inFrame⟩

theorem land {ch : Nat} {r : Transfer} (hl : land s ch r = .ok t) : InRasterFrame fmt t := by
  have hinv : Inv t := h.inv.land hl
  obtain ⟨-, rfl⟩ := land_ok hl
  exact ⟨hinv, h.active, h.engine, h.format, h.inFrame⟩

theorem congr (ht : t.stripped = s.stripped) : InRasterFrame fmt t := by
  obtain ⟨hinv, ha, he, hfmt, hf⟩ := h
  refine ⟨hinv.congr ht, ?_, ?_, ?_, ?_⟩
  · exact (congrArg State.active ht).trans ha
  · exact (congrArg (fun u => cfgEngine u.cfg) ht).trans he
  · exact (congrArg (fun u => cfgPixFmt u.cfg) ht).trans hfmt
  · exact (congrArg State.inFrame ht).trans hf

/-- A successful submission (R187): the record still pending on the handle lands, and the line takes its place. -/
theorem recordTransfer {ch : Nat} {r : Transfer} (hin : inStore s.prm r.buf r.off r.bytes.length = true)
    (hr : recordTransfer ch r s = .ok t) : InRasterFrame fmt t := by
  unfold Machine.recordTransfer at hr
  split at hr
  case h_1 =>
    cases hr
    exact (h.setPending hin).congr rfl
  case h_2 old _ =>
    split at hr
    case h_1 u hu =>
      cases hr
      have hland : InRasterFrame fmt u := h.land hu
      obtain ⟨-, rfl⟩ := land_ok hu
      exact (hland.setPending hin).congr rfl
    case h_2 => cases hr

/-- `CopyLine` of a row of the crop window (R187, R188). -/
theorem copyLine {row : Nat} {pay : List Byte} {busyMask : BitVec 8} (hrow : row < (cfgV s.cfg).toNat)
    (hc : copyLine row pay busyMask s = .ok t) : InRasterFrame fmt t := by
  unfold Machine.copyLine at hc
  split at hc
  case isTrue => exact h.fbWrite hc
  case isFalse =>
    have hrr : (BitVec.ofNat 8 ((s.rr.toNat + 1) % s.prm.nch)).toNat < s.prm.nch :=
      Nat.lt_of_le_of_lt (Nat.mod_le _ _) (Nat.mod_lt _ h.inv.counters_pos.2.2)
    have hsubmitted (drop : Bool) := h.setLineRegs (line := s.line) (drop := drop) hrr
    have hin := row_inStore h.inv h.active h.engine hrow pay
    unfold copyLineDma at hc
    dsimp only at hc
    split at hc
    case isTrue =>
      refine InRasterFrame.recordTransfer ?_ ?_ hc
      · exact (hsubmitted s.drop).congr rfl
      · exact hin
    case isFalse =>
      cases hc
      exact (hsubmitted true).congr rfl

theorem rasterLineBody {busyMask : BitVec 8} {pay : List Byte} (hraster : fmt ≠ .jpeg)
    (hl : rasterLineBody busyMask pay s = .ok t) : Inv t := by
  unfold Machine.rasterLineBody at hl
  dsimp only at hl
  split at hl
  case isFalse =>
    cases hl
    exact h.countLines.inv
  case isTrue hwindow =>
    split at hl
    case isTrue =>
      cases hl
      exact h.countLines.countLine hraster
    case isFalse =>
      split at hl
      case h_1 u hu =>
        cases hl
        exact (h.countLines.copyLine (row_lt_of_inWindow hwindow) hu).countLine hraster
      case h_2 => cases hl

/-! ## JPEG lines -/

/-- `JpegFrameEnd` (R193). -/
theorem jpegFrameEnd : Inv (jpegFrameEnd s) :=
  (h.endFrame.setReqEn ((commit_active ..).trans h.active)).congr rfl

/-- `JpegOverflow` (R192) moves no write cursor. -/
theorem jpegOverflow : Inv (jpegOverflow s) :=
  (h.setBuf (b := { s.buf s.tail with bflags := setStored (s.buf s.tail).bflags flagOverflow }) rfl
    fun hj => h.tail_woff_le hj).jpegFrameEnd

/-- A line that fits leaves the write cursor inside the buffer (R190, R191, R193). -/
theorem jpegAppend {pay : List Byte} (hfit : (s.buf s.tail).woff.toNat + jpegLen pay ≤ s.prm.cap)
    (hp : jpegAppend pay s = .ok t) : Inv t := by
  unfold Machine.jpegAppend at hp
  dsimp only at hp
  split at hp
  case h_1 => cases hp
  case h_2 u hu =>
    have hwritten : InRasterFrame fmt u := h.fbWrite hu
    obtain ⟨-, rfl⟩ := fbWrite_ok hu
    have happended := hwritten.setBuf
      (b := { s.buf s.tail with woff := BitVec.ofNat 32 ((s.buf s.tail).woff.toNat + jpegLen pay) }) rfl
      fun _ => Nat.le_trans (Nat.mod_le _ _) hfit
    cases hp
    split
    · exact happended.jpegFrameEnd
    · exact happended.inv

theorem jpegLineBody {pay : List Byte} (hl : jpegLineBody pay s = .ok t) : Inv t := by
  unfold Machine.jpegLineBody at hl
  dsimp only at hl
  split at hl
  case isTrue =>
    cases hl
    exact h.countLines.jpegOverflow
  case isFalse hfit => exact h.countLines.jpegAppend (Nat.le_of_not_lt hfit) hl

end InRasterFrame

section
variable {s t : State} (h : Inv s)
include h

/-- `EV_LINE.RASTER` (R184), which is the reading of its word in every mode but JPEG (R109). -/
theorem inv_of_execEvLineRaster {busyMask : BitVec 8} (hmode : cfgPixFmt s.cfg ≠ .jpeg)
    (hx : execEvLineRaster busyMask s = .next t) : Inv t := by
  unfold execEvLineRaster at hx
  split at hx
  case isTrue =>
    cases hx
    exact h
  case isFalse hacts =>
    simp only [ne_eq, not_or, not_not, Bool.not_eq_false] at hacts
    obtain ⟨he, ha, hf⟩ := hacts
    split at hx
    case isTrue => cases hx
    case isFalse => exact InRasterFrame.rasterLineBody ⟨h, ha, he, rfl, hf⟩ hmode (finish_next hx)

/-- `EV_LINE.JPEG` (R190). -/
theorem inv_of_execEvLineJpeg {busyMask : BitVec 8} (hx : execEvLineJpeg busyMask s = .next t) : Inv t := by
  unfold execEvLineJpeg at hx
  split at hx
  case isTrue =>
    cases hx
    exact h
  case isFalse hacts =>
    simp only [ne_eq, not_or, not_not, Bool.not_eq_false] at hacts
    obtain ⟨he, ha, hf, -⟩ := hacts
    split at hx
    case isTrue => cases hx
    case isFalse =>
      split at hx
      case isTrue => cases hx
      case isFalse => exact InRasterFrame.jpegLineBody ⟨h, ha, he, rfl, hf⟩ (finish_next hx)

/-- `EV_DMA_DONE` (R194). -/
theorem inv_of_execEvDmaDone {ch : BitVec 8} (hx : execEvDmaDone ch s = .next t) : Inv t := by
  unfold execEvDmaDone at hx
  split at hx
  case isTrue =>
    cases hx
    exact h
  case isFalse =>
    split at hx
    case h_1 =>
      cases hx
      exact h
    case h_2 => exact h.land (finish_next hx)

/-! ## Every instruction and every step -/

/-- An instruction keeps the invariant in the mode in which its word means it (R109). -/
theorem inv_of_exec {i : Instr} (hmode : i.inMode (jpegMode s)) (hx : exec i s = .next t) : Inv t := by
  cases i with
  | setupBuffers => exact inv_of_execSetupBuffers h hx
  | acquire flags => exact inv_of_execAcquire h hx
  | release flags => exact inv_of_execRelease h hx
  | getHead flags => exact inv_of_execGetHead h hx
  | getTail flags =>
    exact inv_of_command h (body := fun s => respond .ok (some s.tail) false s) hx fun _ => h.congr rfl
  | resetBuf idx => exact inv_of_execResetBuf h hx
  | readable ctx =>
    cases hx
    exact h.congr rfl
  | freeCurrent => exact inv_of_execFreeCurrent h hx
  | init => exact inv_of_execInit h hx
  | deinit => exact inv_of_execDeinit h hx
  | abort => exact inv_of_execAbort h hx
  | active ctx =>
    cases hx
    exact h.congr rfl
  | snapshot flags => exact inv_of_execSnapshot h hx
  | evPkt => exact inv_of_execEvPkt h hx
  | evSof throttleDrop => exact inv_of_execEvSof h hx
  | evLineRaster busyMask =>
    have hraster : cfgPixFmt s.cfg ≠ .jpeg := by simpa [jpegMode] using hmode.1 busyMask rfl
    exact inv_of_execEvLineRaster h hraster hx
  | evLineJpeg busyMask => exact inv_of_execEvLineJpeg h (busyMask := busyMask) hx
  | evDmaDone ch => exact inv_of_execEvDmaDone h hx
  | evPoll => exact inv_of_execEvPoll h hx

end

/-- Settles O57: a step clears the output, refuses its input, answers an illegal word, or runs the instruction that the
latched pixel format gives its word. -/
theorem stepKeepsInv : Obligations.StepKeepsInv := by
  intro s t h hstep
  cases hin : s.inputs with
  | nil =>
    rw [step_of_no_input hin] at hstep
    cases hstep
    exact h.congr rfl
  | cons x rest =>
    cases htick : tickOk s.lastNow x.now with
    | false =>
      rw [step_of_tick_backwards hin htick] at hstep
      cases hstep
    | true =>
      have htake : Inv (s.take x rest) := inv_take x rest h
      cases hdec : decode (jpegMode s) x.w with
      | error e =>
        rw [step_of_decode_error hin htick hdec] at hstep
        cases hstep
        exact htake.congr rfl
      | ok i =>
        rw [step_of_decode_ok hin htick hdec] at hstep
        obtain ⟨-, -, hmode⟩ := encodeOfDecode _ _ _ hdec
        exact inv_of_exec htake hmode hstep

/-! ## Runs -/

theorem inv_of_run {n : Nat} {s t : State} (h : Inv s) (hrun : Sys2Proof.core.run n s = .next t) : Inv t := by
  induction n generalizing s with
  | zero =>
    cases hrun
    exact h
  | succ n ih =>
    cases hstep : Sys2Proof.core.step s with
    | next u =>
      have hrest : Sys2Proof.core.run n u = .next t := by simpa only [Host.Core.run, hstep] using hrun
      exact ih (stepKeepsInv s u h hstep) hrest
    | fault r => simp [Host.Core.run, hstep] at hrun
    | refused r => simp [Host.Core.run, hstep] at hrun

/-- Delivering inputs writes the step interface alone, so that a run begins in the invariant. -/
theorem inv_of_reachable {s : State} (h : Reachable s) : Inv s := by
  obtain ⟨inputs, n, hrun⟩ := h
  exact inv_of_run (s := { State.reset with inputs := inputs }) (resetInv.congr rfl) hrun

/-- Settles O59: the ring is part of the invariant, and its only WRITING buffer is the one at `tail`. -/
theorem reachableRing : Obligations.ReachableRing := by
  intro s hreach hi
  obtain ⟨used, hring⟩ := (inv_of_reachable hreach).ringHolds hi
  refine ⟨hring.ringShape, fun i j hin hjn hist hjst => ?_⟩
  rw [hring.eq_tail_of_writing hin hist, hring.eq_tail_of_writing hjn hjst]

end Sys2Proof.Machine
end

section
/-! PROOFS. A good packet (41_packet_engine R161, R163, R164): what `Advance` does in the middle and at the end of a
frame, and so what the packet leaves. -/

namespace Sys2Proof.Machine

/-- The packet expected after the expected one inside a frame (R164). -/
def nextPid (s : State) : BitVec 12 := if s.expPid.toNat + 1 = s.prm.segPkts then 0#12 else s.expPid + 1#12

/-- The segment of the packet expected after the expected one inside a frame (R164). -/
def nextSeg (s : State) : BitVec 3 := if s.expPid.toNat + 1 = s.prm.segPkts then s.expSeg + 1#3 else s.expSeg

/-- `Advance` before the last packet of a frame (R164): the next packet of the segment, or the next segment. -/
theorem advancePacket_of_not_frameEnd {s : State} (hend : ¬ AtFrameEnd s) :
    advancePacket s = { s with expPid := nextPid s, expSeg := nextSeg s } := by
  unfold advancePacket nextPid nextSeg
  by_cases hpid : s.expPid.toNat + 1 = s.prm.segPkts
  · have hseg : ¬ s.expSeg.toNat + 1 = segCount s.multi := fun hseg => hend ⟨hpid, hseg⟩
    simp only [if_pos hpid, if_neg hseg]
  · simp only [if_neg hpid]

/-- `Advance` after the last packet of a frame (R164): the counters return to 0 and the buffer is committed. -/
theorem advancePacket_of_frameEnd {s : State} (hend : AtFrameEnd s) :
    advancePacket s = commit true { s with expPid := 0#12, expSeg := 0#3 } := by
  obtain ⟨hpid, hseg⟩ := hend
  unfold advancePacket
  rw [if_pos hpid]
  exact if_pos hseg

/-- The descriptor at `tail` of the frame that the expected packet completes: checked and READABLE (R134, R164). -/
def completedBuf (s : State) : Buf := { placedBuf s with st := .readable, bflags := (placedBuf s).bflags ||| 4#3 }

/-- `s` with the packet on the port placed in the buffer at `tail`, which is taken or restarted if the packet is the
first of its frame (R163, R225). -/
def withPacket (s : State) : State :=
  { s with
    fb := Memory.setRange s.fb (fbKey s.tail.toNat (packetOffset s)) (payloadOf s),
    bufs := s.bufs.set s.tail.toNat (placedBuf s), wrValid := if AtFrameStart s then true else s.wrValid }

theorem storedAt_withPacket (s : State) :
    StoredAt s.fb (withPacket s).fb (fbKey s.tail.toNat (packetOffset s)) (payloadOf s) :=
  storedAt_setRange s.fb _ _

theorem buf_tail_withPacket {s : State} (ht : s.tail.toNat < s.bufs.length) :
    (withPacket s).buf s.tail = placedBuf s :=
  buf_setBuf s s.tail (placedBuf s) ht

/-- A good packet that finds its buffer and a place in it: what the statements about placing a packet assume. -/
structure Placeable (s : State) : Prop where
  acts : PacketActs s
  examined : ¬ DontCarePacket s
  good : GoodPacket s
  tail_lt : s.tail.toNat < s.bufs.length
  available : AtFrameStart s → BufferAvailable s
  fits : inStore s.prm s.tail (packetOffset s) (payloadOf s).length = true

section
variable {s : State} (h : Placeable s)
include h

theorem Placeable.exec_evPkt : exec .evPkt s = .next (advancePacket (withPacket s)) :=
  exec_evPkt_placed s h.acts h.examined h.good h.tail_lt h.available h.fits

theorem Placeable.exec_evPkt_of_not_frameEnd (hend : ¬ AtFrameEnd s) :
    exec .evPkt s = .next { withPacket s with expPid := nextPid s, expSeg := nextSeg s } := by
  rw [h.exec_evPkt, advancePacket_of_not_frameEnd (s := withPacket s) hend]
  rfl

/-- The commit finds the descriptor that the placement has just written. -/
theorem Placeable.exec_evPkt_of_frameEnd (hend : AtFrameEnd s) : exec .evPkt s = .next (State.called
    { withPacket s with
      bufs := s.bufs.set s.tail.toNat (completedBuf s), wrValid := false, tail := after s s.tail,
      expPid := 0#12, expSeg := 0#3 }
    (callbackOf s)) := by
  rw [h.exec_evPkt, advancePacket_of_frameEnd (s := withPacket s) hend, commit_eq]
  have hplaced : State.buf { withPacket s with expPid := 0#12, expSeg := 0#3 } (withPacket s).tail = placedBuf s :=
    buf_tail_withPacket h.tail_lt
  rw [hplaced]
  simp only [withPacket, List.set_set]
  rfl

end

/-- Settles O39: the packet is placed, and `Advance` does not commit before the end of the frame. -/
theorem packetPlaced : Obligations.PacketPlaced := by
  refine ⟨by decide, fun s hacts hdc hgood hend htail havail hfits => ?_⟩
  exact ⟨_, storedAt_withPacket s,
    Placeable.exec_evPkt_of_not_frameEnd ⟨hacts, hdc, hgood, htail, havail, hfits⟩ hend⟩

/-- Settles O40: the packet is placed, and `Advance` commits at the end of the frame. -/
theorem packetCompletesFrame : Obligations.PacketCompletesFrame := by
  intro s hacts hdc hgood hend htail havail hfits
  exact ⟨_, storedAt_withPacket s,
    Placeable.exec_evPkt_of_frameEnd ⟨hacts, hdc, hgood, htail, havail, hfits⟩ hend⟩

end Sys2Proof.Machine
end

section
/-! PROOFS. The packets of a frame (41_packet_engine R167): the state after `k` of them is written out, one more packet
leads to the state after `k + 1`, and the last one to the committed frame. -/

namespace Sys2Proof.Machine

/-! ## Packets as bytes (30_encoding R102, R103) -/

theorem be16_be16Bytes (v : BitVec 16) : be16 (v.extractLsb' 8 8) (v.extractLsb' 0 8) = v := by
  apply BitVec.eq_of_toNat_eq
  rw [be16_toNat, toNat_extractLsb'_eq_div_mod, toNat_extractLsb'_eq_div_mod]
  omega

theorem packetIdw_be16Bytes (v : BitVec 16) (bytes : List Byte) : packetIdw (be16Bytes v ++ bytes) = v :=
  be16_be16Bytes v

theorem packetPid_be16Bytes (v : BitVec 16) (bytes : List Byte) :
    (packetPid (be16Bytes v ++ bytes)).toNat = v.toNat % 2 ^ 12 := by
  rw [packetPid, packetIdw_be16Bytes, toNat_extractLsb'_eq_div_mod, Nat.pow_zero, Nat.div_one]

theorem packetWseg_be16Bytes (v : BitVec 16) (bytes : List Byte) :
    (packetWseg (be16Bytes v ++ bytes)).toNat = v.toNat / 2 ^ 12 % 2 ^ 3 := by
  rw [packetWseg, packetIdw_be16Bytes, toNat_extractLsb'_eq_div_mod]

/-! ## The store -/

/-- Writing a byte string and then the bytes that follow it writes the two as one. -/
theorem setRange_append (m : Memory) (a : Nat) (bytes more : List Byte) :
    Memory.setRange m a (bytes ++ more) = Memory.setRange (Memory.setRange m a bytes) (a + bytes.length) more := by
  induction bytes generalizing m a with
  | nil => rfl
  | cons b bytes ih =>
    have hlen : a + (b :: bytes).length = a + 1 + bytes.length := by simp only [List.length_cons]; omega
    rw [hlen]
    exact ih (Memory.set m a b) (a + 1)

/-! ## Packet `k` of a frame -/

/-- Payload bytes of a packet in the spelling of the statements (R102). -/
abbrev pktBytes (s : State) : Nat := s.prm.pktPix * s.prm.pixBytes

/-- Packets of a frame, `NSEG * S` (R160). -/
abbrev framePackets (s : State) : Nat := segCount s.multi * s.prm.segPkts

/-- Bytes `[k * P * PB, (k + 1) * P * PB)` of an image (R167). -/
def imageSlice (s : State) (image : List Byte) (k : Nat) : List Byte := (image.drop (k * pktBytes s)).take (pktBytes s)

/-- An active serial session at a frame start, with a FREE buffer at `tail` that has room for the image (R167). -/
structure FrameReady (s : State) (image : List Byte) : Prop where
  valid : s.prm.valid = true
  engine : cfgEngine s.cfg = .serial
  active : s.active = true
  frameStart : AtFrameStart s
  tail_lt_length : s.tail.toNat < s.bufs.length
  tail_lt_nmax : s.tail.toNat < s.prm.nmax
  free : (s.buf s.tail).st = .free
  length : image.length = framePackets s * pktBytes s
  fits : image.length ≤ s.prm.cap

/-- The port holds packet `k` of a frame that carries the image, with a check word that passes (R167). -/
structure CarriesPacket (s : State) (image : List Byte) (k : Nat) : Prop where
  index_lt : k < framePackets s
  length : s.port.pay.length = 4 + pktBytes s
  payload : payloadOf s = imageSlice s image k
  pid : (packetPid s.port.pay).toNat = k % s.prm.segPkts
  examined : ¬ DontCarePacket s
  check : cfgCrcEn s.cfg = false ∨ Config.check s.port.pay = true
  segment : SpecialPacket s → (packetWseg s.port.pay).toNat = k / s.prm.segPkts

/-- `s` after the first `k` packets of a frame that is not complete: their bytes of the image in the buffer at `tail`,
the buffer WRITING with its cursor behind them, and the counters at packet `k` (R163, R164, R225). -/
def afterPackets (s : State) (image : List Byte) (k : Nat) : State :=
  { s with
    fb := Memory.setRange s.fb (fbKey s.tail.toNat 0) (image.take (k * pktBytes s)),
    bufs := if k = 0 then s.bufs else s.bufs.set s.tail.toNat ⟨.writing, BitVec.ofNat 32 (k * pktBytes s), 0#3⟩,
    wrValid := if k = 0 then s.wrValid else true,
    expPid := BitVec.ofNat 12 (k % s.prm.segPkts), expSeg := BitVec.ofNat 3 (k / s.prm.segPkts) }

/-- `s` after all the packets of a frame (R134, R164). -/
def afterFrame (s : State) (image : List Byte) : State :=
  State.called
    { s with
      fb := Memory.setRange s.fb (fbKey s.tail.toNat 0) image,
      bufs := s.bufs.set s.tail.toNat ⟨.readable, BitVec.ofNat 32 image.length, 4#3⟩,
      wrValid := false, tail := after s s.tail, expPid := 0#12, expSeg := 0#3 }
    (callbackOf s)

theorem afterPackets_zero {s : State} {image : List Byte} (h : FrameReady s image) : afterPackets s image 0 = s := by
  obtain ⟨hpid, hseg⟩ := h.frameStart
  unfold afterPackets
  simp only [Nat.zero_mul, List.take_zero, Memory.setRange, if_true, Nat.zero_mod, Nat.zero_div, ← hpid, ← hseg]

/-- Packet `k` ends inside the image. -/
theorem succ_mul_pktBytes_le {s : State} {image : List Byte} (hr : FrameReady s image) {k : Nat}
    (hk : k < framePackets s) : (k + 1) * pktBytes s ≤ image.length := by
  rw [hr.length]
  exact Nat.mul_le_mul_right _ hk

theorem length_imageSlice {s : State} {image : List Byte} (hr : FrameReady s image) {k : Nat}
    (hk : k < framePackets s) : (imageSlice s image k).length = pktBytes s := by
  have hle := succ_mul_pktBytes_le hr hk
  rw [Nat.succ_mul] at hle
  rw [imageSlice, List.length_take, List.length_drop]
  omega

/-! ### The counters -/

/-- The packet after the last of a segment is the first of the next segment. -/
theorem succ_divMod_of_segmentEnd {k n : Nat} (hend : k % n + 1 = n) : (k + 1) / n = k / n + 1 ∧ (k + 1) % n = 0 := by
  have hk := Nat.mod_add_div k n
  refine (Nat.div_mod_unique (by omega)).2 ⟨?_, by omega⟩
  rw [Nat.mul_add]
  omega

theorem succ_divMod_of_not_segmentEnd {k n : Nat} (hn : 0 < n) (hend : ¬ k % n + 1 = n) :
    (k + 1) / n = k / n ∧ (k + 1) % n = k % n + 1 := by
  have hk := Nat.mod_add_div k n
  have hlt := Nat.mod_lt k hn
  exact (Nat.div_mod_unique hn).2 ⟨by omega, by omega⟩

theorem segPkts_bounds {p : Params} (h : p.valid = true) : 0 < p.segPkts ∧ p.segPkts ≤ 4095 := by
  simp only [Params.valid, Bool.and_eq_true, decide_eq_true_eq] at h
  omega

theorem segCount_le (multi : Bool) : segCount multi ≤ 4 := by cases multi <;> decide

/-- Packet `k` is the last of the frame exactly when it ends the last segment. -/
theorem segmentEnd_and_lastSegment_iff {k n m : Nat} (hn : 0 < n) :
    k % n + 1 = n ∧ k / n + 1 = m ↔ k + 1 = m * n := by
  constructor
  · rintro ⟨hsegment, rfl⟩
    have hk := Nat.mod_add_div k n
    rw [Nat.succ_mul, Nat.mul_comm]
    omega
  · intro hframe
    by_cases hsegment : k % n + 1 = n
    · have hdiv := (succ_divMod_of_segmentEnd hsegment).1
      rw [hframe, Nat.mul_div_cancel m hn] at hdiv
      exact ⟨hsegment, hdiv.symm⟩
    · have hmod := (succ_divMod_of_not_segmentEnd hn hsegment).2
      rw [hframe, Nat.mul_mod_left] at hmod
      omega

section
variable {s : State} {image : List Byte} {k : Nat} (hr : FrameReady s image) (hc : CarriesPacket s image k)

include hr in
theorem expPid_afterPackets : (afterPackets s image k).expPid.toNat = k % s.prm.segPkts := by
  obtain ⟨hpos, hmax⟩ := segPkts_bounds hr.valid
  have hlt := Nat.mod_lt k hpos
  exact Nat.mod_eq_of_lt (by omega)

include hc in
theorem expSeg_afterPackets : (afterPackets s image k).expSeg.toNat = k / s.prm.segPkts := by
  have hlt : k / s.prm.segPkts < segCount s.multi :=
    Nat.div_lt_of_lt_mul ((Nat.mul_comm ..).symm ▸ hc.index_lt)
  have hmax := segCount_le s.multi
  exact Nat.mod_eq_of_lt (by omega)

include hr hc

theorem atFrameStart_afterPackets_iff : AtFrameStart (afterPackets s image k) ↔ k = 0 := by
  have hpid := expPid_afterPackets hr (k := k)
  have hseg := expSeg_afterPackets hc
  have hk := Nat.mod_add_div k s.prm.segPkts
  constructor
  · rintro ⟨hpid0, hseg0⟩
    rw [hpid0] at hpid
    rw [hseg0] at hseg
    rw [← hpid, ← hseg] at hk
    simpa using hk.symm
  · rintro rfl
    exact (afterPackets_zero hr).symm ▸ hr.frameStart

theorem atFrameEnd_afterPackets_iff : AtFrameEnd (afterPackets s image k) ↔ k + 1 = framePackets s := by
  rw [AtFrameEnd, expPid_afterPackets hr, expSeg_afterPackets hc]
  exact segmentEnd_and_lastSegment_iff (segPkts_bounds hr.valid).1

/-! ### The place of the packet -/

theorem packetOffset_afterPackets : packetOffset (afterPackets s image k) = k * pktBytes s := by
  rw [packetOffset, expPid_afterPackets hr, expSeg_afterPackets hc]
  calc (k % s.prm.segPkts * s.prm.pktPix + k / s.prm.segPkts * s.prm.segPkts * s.prm.pktPix) * s.prm.pixBytes
      = (k % s.prm.segPkts + s.prm.segPkts * (k / s.prm.segPkts)) * (s.prm.pktPix * s.prm.pixBytes) := by ring
    _ = k * pktBytes s := by rw [Nat.mod_add_div]

theorem length_payloadOf_carried : (payloadOf s).length = pktBytes s := by
  rw [hc.payload]
  exact length_imageSlice hr hc.index_lt

theorem placeable_afterPackets : Placeable (afterPackets s image k) where
  acts := ⟨hr.engine, hr.active, hc.length⟩
  examined := hc.examined
  good := by
    refine ⟨BitVec.eq_of_toNat_eq ?_, hc.check, fun hspecial => ?_⟩
    · rw [expPid_afterPackets hr]
      exact hc.pid
    · rw [expSeg_afterPackets hc]
      exact hc.segment hspecial
  tail_lt := by
    have hlen : (afterPackets s image k).bufs.length = s.bufs.length := by
      unfold afterPackets
      split <;> simp only [List.length_set]
    exact hlen.symm ▸ hr.tail_lt_length
  available hstart := by
    obtain rfl := (atFrameStart_afterPackets_iff hr hc).1 hstart
    rw [afterPackets_zero hr]
    exact ⟨hr.tail_lt_length, .inl hr.free⟩
  fits := by
    refine (inStore_iff ..).2 ⟨hr.tail_lt_nmax, ?_⟩
    have hle := succ_mul_pktBytes_le hr hc.index_lt
    have hpay : (payloadOf (afterPackets s image k)).length = pktBytes s :=
      (length_payloadOf_carried hr hc : (payloadOf s).length = pktBytes s)
    rw [packetOffset_afterPackets hr hc, hpay, ← Nat.succ_mul]
    exact Nat.le_trans hle hr.fits

theorem placedBuf_afterPackets :
    placedBuf (afterPackets s image k) = ⟨.writing, BitVec.ofNat 32 ((k + 1) * pktBytes s), 0#3⟩ := by
  have hbuf : (if AtFrameStart (afterPackets s image k) then (⟨.writing, 0#32, 0#3⟩ : Buf)
      else (afterPackets s image k).buf (afterPackets s image k).tail) =
      ⟨.writing, BitVec.ofNat 32 (k * pktBytes s), 0#3⟩ := by
    by_cases hk : k = 0
    · subst hk
      rw [if_pos ((atFrameStart_afterPackets_iff hr hc).2 rfl), Nat.zero_mul]
    · rw [if_neg (mt (atFrameStart_afterPackets_iff hr hc).1 hk)]
      simp only [State.buf, afterPackets, if_neg hk]
      exact buf_setBuf s s.tail _ hr.tail_lt_length
  rw [placedBuf, hbuf, packetOffset_afterPackets hr hc, Nat.succ_mul]
  rfl

theorem completedBuf_afterPackets :
    completedBuf (afterPackets s image k) = ⟨.readable, BitVec.ofNat 32 ((k + 1) * pktBytes s), 4#3⟩ := by
  rw [completedBuf, placedBuf_afterPackets hr hc]
  exact congrArg _ (by decide : 0#3 ||| 4#3 = 4#3)

/-- The bytes of one more packet behind those of the packets before it. -/
theorem fb_withPacket_afterPackets : (withPacket (afterPackets s image k)).fb =
    Memory.setRange s.fb (fbKey s.tail.toNat 0) (image.take ((k + 1) * pktBytes s)) := by
  have hle := succ_mul_pktBytes_le hr hc.index_lt
  have hlen : (image.take (k * pktBytes s)).length = k * pktBytes s := by
    rw [List.length_take]
    rw [Nat.succ_mul] at hle
    omega
  have hkey : fbKey s.tail.toNat 0 + (image.take (k * pktBytes s)).length = fbKey s.tail.toNat (k * pktBytes s) := by
    rw [hlen, fbKey_add, Nat.zero_add]
  have himage : image.take ((k + 1) * pktBytes s) = image.take (k * pktBytes s) ++ payloadOf s := by
    rw [Nat.succ_mul, List.take_add, hc.payload, imageSlice]
  rw [himage, setRange_append, hkey, withPacket, packetOffset_afterPackets hr hc]
  rfl

omit hr hc in
theorem bufs_set_afterPackets (b : Buf) :
    (afterPackets s image k).bufs.set s.tail.toNat b = s.bufs.set s.tail.toNat b := by
  unfold afterPackets
  split <;> simp only [List.set_set]

/-! ### One more packet -/

theorem wrValid_withPacket_afterPackets : (withPacket (afterPackets s image k)).wrValid = true := by
  by_cases hk : k = 0
  · exact if_pos ((atFrameStart_afterPackets_iff hr hc).2 hk)
  · exact (if_neg (mt (atFrameStart_afterPackets_iff hr hc).1 hk)).trans (if_neg hk)

omit hc in
/-- `Advance` (R164) moves the counters from packet `k` to packet `k + 1`. -/
theorem nextPid_nextSeg_afterPackets :
    nextPid (afterPackets s image k) = (afterPackets s image (k + 1)).expPid ∧
      nextSeg (afterPackets s image k) = (afterPackets s image (k + 1)).expSeg := by
  have hpid := expPid_afterPackets hr (k := k)
  by_cases hsegment : (afterPackets s image k).expPid.toNat + 1 = (afterPackets s image k).prm.segPkts
  · obtain ⟨hdiv, hmod⟩ := succ_divMod_of_segmentEnd (hpid ▸ hsegment)
    rw [nextPid, nextSeg, if_pos hsegment, if_pos hsegment]
    simp only [afterPackets, hdiv, hmod, BitVec.ofNat_add, and_self]
  · obtain ⟨hdiv, hmod⟩ := succ_divMod_of_not_segmentEnd (segPkts_bounds hr.valid).1 (hpid ▸ hsegment)
    rw [nextPid, nextSeg, if_neg hsegment, if_neg hsegment]
    simp only [afterPackets, hdiv, hmod, BitVec.ofNat_add, and_self]

theorem exec_evPkt_afterPackets_of_lt (hlast : k + 1 < framePackets s) :
    exec .evPkt (afterPackets s image k) = .next (afterPackets s image (k + 1)) := by
  have hend : ¬ AtFrameEnd (afterPackets s image k) :=
    fun hend => Nat.ne_of_lt hlast ((atFrameEnd_afterPackets_iff hr hc).1 hend)
  obtain ⟨hpid, hseg⟩ := nextPid_nextSeg_afterPackets hr (image := image) (k := k)
  have hbufs : (withPacket (afterPackets s image k)).bufs = (afterPackets s image (k + 1)).bufs := by
    simp only [withPacket, placedBuf_afterPackets hr hc]
    exact bufs_set_afterPackets _
  calc exec .evPkt (afterPackets s image k)
      = .next { s with
          fb := (withPacket (afterPackets s image k)).fb, bufs := (withPacket (afterPackets s image k)).bufs,
          wrValid := (withPacket (afterPackets s image k)).wrValid,
          expPid := nextPid (afterPackets s image k), expSeg := nextSeg (afterPackets s image k) } :=
        (placeable_afterPackets hr hc).exec_evPkt_of_not_frameEnd hend
    _ = .next (afterPackets s image (k + 1)) := by
      rw [fb_withPacket_afterPackets hr hc, hbufs, wrValid_withPacket_afterPackets hr hc, hpid, hseg]
      rfl

theorem exec_evPkt_afterPackets_of_eq (hlast : k + 1 = framePackets s) :
    exec .evPkt (afterPackets s image k) = .next (afterFrame s image) := by
  have hend := (atFrameEnd_afterPackets_iff hr hc).2 hlast
  have himage : (k + 1) * pktBytes s = image.length := by rw [hlast, hr.length]
  have hfb : (withPacket (afterPackets s image k)).fb = Memory.setRange s.fb (fbKey s.tail.toNat 0) image := by
    rw [fb_withPacket_afterPackets hr hc, himage, List.take_length]
  have hbufs : (afterPackets s image k).bufs.set s.tail.toNat (completedBuf (afterPackets s image k)) =
      (afterFrame s image).bufs := by
    rw [bufs_set_afterPackets, completedBuf_afterPackets hr hc, himage]
    rfl
  calc exec .evPkt (afterPackets s image k)
      = .next (State.called { s with
          fb := (withPacket (afterPackets s image k)).fb,
          bufs := (afterPackets s image k).bufs.set s.tail.toNat (completedBuf (afterPackets s image k)),
          wrValid := false, tail := after s s.tail, expPid := 0#12, expSeg := 0#3 } (callbackOf s)) :=
        (placeable_afterPackets hr hc).exec_evPkt_of_frameEnd hend
    _ = .next (afterFrame s image) := by
      rw [hfb, hbufs]
      rfl

end

/-! ## The packets of a frame, one step each -/

/-- The word of `EV_PKT` is no `EV_LINE`, so that it decodes alike in both modes (R109). -/
theorem decode_encode_evPkt (jpeg : Bool) : decode jpeg (encode .evPkt) = .ok .evPkt :=
  decodeOfEncode jpeg .evPkt rfl nofun nofun

theorem tickOk_self (now : Word) : tickOk (some now) now = true := by simp [tickOk]

/-- The step of an `EV_PKT` in the middle of a frame. -/
theorem step_afterPackets {s : State} {x : Input} {rest : List Input} (image : List Byte) (k : Nat)
    (hin : s.inputs = x :: rest) (htick : tickOk s.lastNow x.now = true) (hw : x.w = encode .evPkt) :
    step (afterPackets s image k) = exec .evPkt (afterPackets (s.take x rest) image k) :=
  step_of_decode_ok (s := afterPackets s image k) hin htick (hw ▸ decode_encode_evPkt _)

theorem FrameReady.take {s : State} {image : List Byte} (h : FrameReady s image) (x : Input) (rest : List Input) :
    FrameReady (s.take x rest) image :=
  ⟨h.valid, h.engine, h.active, h.frameStart, h.tail_lt_length, h.tail_lt_nmax, h.free, h.length, h.fits⟩

/-- Input `x` is the event of packet `k` of a frame that carries the image. -/
structure DeliversPacket (s : State) (image : List Byte) (now : Word) (x : Input) (k : Nat) : Prop where
  word : x.w = encode .evPkt
  tick : x.now = now
  carries : ∀ rest, CarriesPacket (s.take x rest) image k

theorem DeliversPacket.take {s : State} {image : List Byte} {now : Word} {x : Input} {k : Nat}
    (h : DeliversPacket s image now x k) (y : Input) (rest : List Input) :
    DeliversPacket (s.take y rest) image now x k :=
  ⟨h.word, h.tick, fun _ => h.carries _⟩

theorem run_succ_of_step {s t : State} (h : step s = .next t) (n : Nat) :
    Sys2Proof.core.run (n + 1) s = Sys2Proof.core.run n t := by
  have hcore : Sys2Proof.core.step s = .next t := h
  simp only [Host.Core.run, hcore]

/-- From packet `k` on, the remaining packets of the frame lead to the committed frame, the last of them on the port. -/
theorem run_afterPackets {image : List Byte} {now : Word} {packet : Nat → Input} {rest : List Input} (d k : Nat)
    (s : State) (hr : FrameReady s image) (hlen : k + (d + 1) = framePackets s) (htick : tickOk s.lastNow now = true)
    (hin : s.inputs = (List.range' k (d + 1)).map packet ++ rest)
    (hdelivers : ∀ j, j < framePackets s → DeliversPacket s image now (packet j) j) :
    Sys2Proof.core.run (d + 1) (afterPackets s image k) =
      .next (afterFrame (s.take (packet (k + d)) rest) image) := by
  induction d generalizing k s with
  | zero =>
    have hx := hdelivers k (by omega)
    have hstep : step (afterPackets s image k) = .next (afterFrame (s.take (packet k) rest) image) :=
      (step_afterPackets image k hin (hx.tick ▸ htick) hx.word).trans
        (exec_evPkt_afterPackets_of_eq (hr.take ..) (hx.carries rest) hlen)
    exact run_succ_of_step hstep 0
  | succ d ih =>
    have hx := hdelivers k (by omega)
    have hlen' : k + 1 + (d + 1) = framePackets s := by omega
    have hin' : s.inputs = packet k :: ((List.range' (k + 1) (d + 1)).map packet ++ rest) := hin
    have hstep := (step_afterPackets image k hin' (hx.tick ▸ htick) hx.word).trans
      (exec_evPkt_afterPackets_of_lt (hr.take ..) (hx.carries _) (by omega : k + 1 < framePackets s))
    have htick' : tickOk (some (packet k).now) now = true := hx.tick ▸ tickOk_self now
    have hrun := ih (k + 1) _ (hr.take ..) hlen' htick' rfl fun j hj => (hdelivers j hj).take ..
    rw [run_succ_of_step hstep, hrun, Nat.add_right_comm]
    rfl

/-! ## What the committed frame holds -/

/-- Reading the store of a committed frame: the image at `tail`, and every other buffer as it was (R167). -/
theorem fbByte_afterFrame {s : State} {image : List Byte} (hlen : image.length < 2 ^ 32) (j : BitVec 8) {k : Nat}
    (hk : k < 2 ^ 32) :
    fbByte (afterFrame s image) j k = if j = s.tail ∧ k < image.length then image.getD k 0#8 else fbByte s j k := by
  have hbyte := fbByte_setRange s s.tail j 0 k image (by omega) hk
  simp only [Nat.zero_le, Nat.zero_add, Nat.sub_zero, true_and] at hbyte
  exact hbyte

theorem cap_lt_of_params_valid {p : Params} (h : p.valid = true) : p.cap < 2 ^ 32 := by
  simp only [Params.valid, Bool.and_eq_true, decide_eq_true_eq] at h
  omega

/-! ## The events of R167 -/

/-- The event of packet `k` of `frameInputs`. -/
def packetInput (p : Params) (now : Word) (ids crcs : Nat → BitVec 16) (image : List Byte) (k : Nat) : Input :=
  { Input.zero with
    w := encode .evPkt, now := now,
    pay := be16Bytes (ids k) ++ be16Bytes (crcs k) ++
      (image.drop (k * (p.pktPix * p.pixBytes))).take (p.pktPix * p.pixBytes) }

theorem frameInputs_eq (p : Params) (multi : Bool) (now : Word) (ids crcs : Nat → BitVec 16) (image : List Byte) :
    frameInputs p multi now ids crcs image =
      (List.range' 0 (segCount multi * p.segPkts)).map (packetInput p now ids crcs image) := by
  rw [← List.range_eq_range']
  rfl

/-- An id word with the packet number of R167, the segment number where it is examined (R103, R162), and a check word
that passes make the event of packet `k`. -/
theorem deliversPacket_packetInput {s : State} {image : List Byte} (hr : FrameReady s image) {now : Word}
    {ids crcs : Nat → BitVec 16} {k : Nat} (hk : k < framePackets s)
    (hpid : (ids k).toNat % 2 ^ 12 = k % s.prm.segPkts) (hexamined : ids k &&& s.prm.dcMask ≠ s.prm.dcMatch)
    (hseg : s.multi = true → k % s.prm.segPkts = s.prm.specialPid →
      (ids k).toNat / 2 ^ 12 % 2 ^ 3 = k / s.prm.segPkts)
    (hcheck : cfgCrcEn s.cfg = false ∨ Config.check (packetInput s.prm now ids crcs image k).pay = true) :
    DeliversPacket s image now (packetInput s.prm now ids crcs image k) k where
  word := rfl
  tick := rfl
  carries rest := by
    have hpay : (packetInput s.prm now ids crcs image k).pay =
        be16Bytes (ids k) ++ (be16Bytes (crcs k) ++ imageSlice s image k) := List.append_assoc ..
    have hidw : packetIdw (packetInput s.prm now ids crcs image k).pay = ids k := by
      rw [hpay, packetIdw_be16Bytes]
    have hpid' : (packetPid (packetInput s.prm now ids crcs image k).pay).toNat = k % s.prm.segPkts := by
      rw [hpay, packetPid_be16Bytes, hpid]
    refine ⟨hk, ?length, ?payload, hpid', fun hdc => hexamined (hidw ▸ hdc), hcheck, fun hspecial => ?segment⟩
    case length =>
      calc (packetInput s.prm now ids crcs image k).pay.length
          = 2 + (2 + (imageSlice s image k).length) := by
            rw [hpay, List.length_append, List.length_append]
            rfl
        _ = 4 + pktBytes s := by
          rw [length_imageSlice hr hk]
          omega
    case payload =>
      have hdrop : (packetInput s.prm now ids crcs image k).pay.drop 4 = imageSlice s image k := by
        rw [hpay]
        rfl
      calc ((packetInput s.prm now ids crcs image k).pay.drop 4).take (pktBytes s)
          = (imageSlice s image k).take (pktBytes s) := by rw [hdrop]
        _ = imageSlice s image k := List.take_of_length_le (Nat.le_of_eq (length_imageSlice hr hk))
    case segment =>
      obtain ⟨hmulti, hspecialPid⟩ := hspecial
      calc (packetWseg (packetInput s.prm now ids crcs image k).pay).toNat
          = (ids k).toNat / 2 ^ 12 % 2 ^ 3 := by rw [hpay, packetWseg_be16Bytes]
        _ = k / s.prm.segPkts := hseg hmulti (hpid'.symm.trans hspecialPid)

theorem packetInput_mem_frameInputs {p : Params} {multi : Bool} {now : Word} {ids crcs : Nat → BitVec 16}
    {image : List Byte} {k : Nat} (hk : k < segCount multi * p.segPkts) :
    packetInput p now ids crcs image k ∈ frameInputs p multi now ids crcs image :=
  List.mem_map.2 ⟨k, List.mem_range.2 hk, rfl⟩

/-- Settles O60: the run ends in the committed frame, whose store holds the image at `tail` and whose other fields are
those the statement names. -/
theorem roundTrip : Obligations.RoundTrip := by
  intro s now ids crcs image rest hvalid hengine hactive hstart htail htailStore hfree hlen hfits htick hids hcheck hin
  have hr : FrameReady s image := ⟨hvalid, hengine, hactive, hstart, htail, htailStore, hfree, hlen, hfits⟩
  have hdelivers (k : Nat) (hk : k < framePackets s) :
      DeliversPacket s image now (packetInput s.prm now ids crcs image k) k := by
    obtain ⟨hpid, hexamined, hseg⟩ := hids k hk
    exact deliversPacket_packetInput hr hk hpid hexamined hseg
      (hcheck.imp_right fun hall => hall _ (packetInput_mem_frameInputs hk))
  have hpos : 0 < segCount s.multi * s.prm.segPkts := Nat.mul_pos (segCount_pos _) (segPkts_bounds hvalid).1
  obtain ⟨d, hd⟩ := Nat.exists_eq_add_one_of_ne_zero (Nat.ne_of_gt hpos)
  rw [frameInputs_eq, hd] at hin
  have hrun := run_afterPackets d 0 s hr ((Nat.zero_add _).trans hd.symm) htick hin hdelivers
  rw [afterPackets_zero hr] at hrun
  have hcap := cap_lt_of_params_valid hvalid
  have himage : image.length < 2 ^ 32 := Nat.lt_of_le_of_lt hfits hcap
  rw [hd]
  refine ⟨_, hrun, fun k hk => ?atTail, fun j k hj hk => ?others, rfl, rfl, rfl, hactive, ⟨rfl, rfl⟩, rfl, rfl⟩
  case atTail =>
    refine (fbByte_afterFrame himage s.tail (Nat.lt_trans hk himage)).trans ?_
    rw [if_pos ⟨rfl, hk⟩]
    exact List.getD_eq_getElem _ _ hk
  case others =>
    refine (fbByte_afterFrame himage j (Nat.lt_trans hk hcap)).trans ?_
    exact if_neg fun hread => hj hread.1

end Sys2Proof.Machine
end

section
/-! PROOFS. The burst derivation (42_line_engine R181, R182): the widths the search gives, and the two arms of
`DeriveBurst`. -/

namespace Sys2Proof.Machine

theorem isRaster_iff (f : PixFmt) : f.isRaster = true ↔ f ∈ [.grayscale, .rgb, .yuv, .bayer] := by
  cases f <;> decide

/-- `b` is the largest of the burst widths of R181 with a property. -/
structure LargestBurst (p : Nat → Prop) (b : Nat) : Prop where
  mem : b ∈ [1, 2, 4, 8, 32]
  holds : p b
  le : ∀ c, c ∈ [1, 2, 4, 8, 32] → p c → c ≤ b

/-- A burst width fits the 6 bits of its register (R35). -/
theorem LargestBurst.toNat_ofNat {p : Nat → Prop} {b : Nat} (h : LargestBurst p b) : (BitVec.ofNat 6 b).toNat = b := by
  have hmem : ∀ c ∈ [1, 2, 4, 8, 32], (BitVec.ofNat 6 c).toNat = c := by decide
  exact hmem b h.mem

theorem dstBurstOf_largest (stride : Nat) : LargestBurst (· ∣ stride) (dstBurstOf stride) := by
  obtain ⟨hmem, hdvd, hle⟩ := largestBurst_spec (fun b => decide (b ∣ stride)) (by simp)
  exact ⟨hmem, of_decide_eq_true hdvd, fun c hc hd => hle c hc (decide_eq_true hd)⟩

theorem srcBurstOf_largest (dstBurst off : Nat) :
    LargestBurst (fun b => b ∣ dstBurst ∧ b ∣ off) (srcBurstOf dstBurst off) := by
  obtain ⟨hmem, hdvd, hle⟩ :=
    largestBurst_spec (fun b => decide (b ∣ dstBurst) && decide (b ∣ off)) (by simp)
  simp only [Bool.and_eq_true, decide_eq_true_eq] at hdvd hle
  exact ⟨hmem, hdvd, hle⟩

/-- 16 is no burst width (R182): a stride it divides and 32 does not is served by 8. -/
theorem dstBurstOf_of_dvd_16 {stride : Nat} (h16 : 16 ∣ stride) (h32 : ¬ 32 ∣ stride) : dstBurstOf stride = 8 := by
  have h := dstBurstOf_largest stride
  have hge : 8 ≤ dstBurstOf stride := h.le 8 (by decide) (Nat.dvd_trans (by decide) h16)
  have hne : dstBurstOf stride ≠ 32 := fun he => h32 (he ▸ h.holds)
  have hmem := h.mem
  simp only [List.mem_cons, List.not_mem_nil, or_false] at hmem
  omega

theorem srcBurstOf_le (stride off : Nat) : srcBurstOf (dstBurstOf stride) off ≤ dstBurstOf stride := by
  have hpos : 0 < dstBurstOf stride := (dstBurstOf_largest stride).le 1 (by decide) (Nat.one_dvd _)
  exact Nat.le_of_dvd hpos (srcBurstOf_largest _ _).holds.1

/-- The arm of `DeriveBurst` for a raster format on the raster engine (R181). -/
theorem deriveBurst_of_raster {s : State} (he : cfgEngine s.cfg = .raster)
    (hf : cfgPixFmt s.cfg ∈ [.grayscale, .rgb, .yuv, .bayer]) :
    let stride := (cfgU s.cfg).toNat * bytesPerPixel s.prm (cfgPixCode s.cfg)
    let off := (cfgX s.cfg).toNat * bytesPerPixel s.prm (cfgPixCode s.cfg)
    deriveBurst s =
      { s with
        dstStride := BitVec.ofNat 32 stride, srcOff := BitVec.ofNat 32 off,
        dstBurst := BitVec.ofNat 6 (dstBurstOf stride),
        srcBurst := BitVec.ofNat 6 (srcBurstOf (dstBurstOf stride) off),
        dmaEn := decide (s.prm.minDmaStride ≤ stride) } :=
  if_pos ⟨he, (isRaster_iff _).2 hf⟩

/-- The other arm, for JPEG and for the other engines (R181). -/
theorem deriveBurst_of_other {s : State}
    (h : cfgEngine s.cfg ≠ .raster ∨ cfgPixFmt s.cfg ∉ [.grayscale, .rgb, .yuv, .bayer]) :
    deriveBurst s =
      { s with dstStride := 0#32, srcOff := 0#32, dstBurst := 1#6, srcBurst := 1#6, dmaEn := false } := by
  rw [← isRaster_iff] at h
  exact if_neg fun hboth => h.elim (· hboth.1) (· hboth.2)

/-- Settles O51: each burst register holds the largest width with its property. -/
theorem burstLaws : Obligations.BurstLaws := by
  refine ⟨fun s he hf => ?_, fun s => deriveBurst_of_other⟩
  intro stride off hstride hoff d
  have hd : d = _ := deriveBurst_of_raster he hf
  have hdst := dstBurstOf_largest stride
  have hsrc := srcBurstOf_largest (dstBurstOf stride) off
  have hdstReg : d.dstBurst.toNat = dstBurstOf stride := by rw [hd]; exact hdst.toNat_ofNat
  have hsrcReg : d.srcBurst.toNat = srcBurstOf (dstBurstOf stride) off := by rw [hd]; exact hsrc.toNat_ofNat
  rw [hdstReg, hsrcReg]
  refine ⟨?frame, ?stride, ?off, ?dmaEn, hdst.mem, hdst.holds, hdst.le, hsrc.mem, hsrc.holds.1, hsrc.holds.2,
    fun b hb hbd hbo => hsrc.le b hb ⟨hbd, hbo⟩, srcBurstOf_le stride off, dstBurstOf_of_dvd_16⟩
  case frame => rw [hd]
  case stride => rw [hd]; exact Nat.mod_eq_of_lt hstride
  case off => rw [hd]; exact Nat.mod_eq_of_lt hoff
  case dmaEn => rw [hd]

end Sys2Proof.Machine
end

section
/-! PROOFS. The start of a frame and the raster lines (42_line_engine R183 to R189): outside the crop window, dropped,
copied, or given to the DMA engine. -/

namespace Sys2Proof

/-! ## The words of the line events -/

/-- The word of a line event, in either mode (R94, R109). -/
theorem wordOf_evLine (mask : BitVec 8) :
    wordOf true mask 0x00#8 0x82#8 = 0x80000082#32 ||| (mask.setWidth 32 <<< 16) :=
  calc wordOf true mask 0x00#8 0x82#8
      = 0x80000082#32 ||| (mask.setWidth 32 <<< 16) ||| 0x00000000#32 := wordOf_eq_or ..
    _ = 0x80000082#32 ||| (mask.setWidth 32 <<< 16) := BitVec.or_zero

/-- The word of the completion of a transfer (R94). -/
theorem wordOf_evDmaDone (ch : BitVec 8) :
    wordOf true 0x00#8 ch 0x83#8 = 0x80000083#32 ||| (ch.setWidth 32 <<< 8) :=
  calc wordOf true 0x00#8 ch 0x83#8
      = 0x80000083#32 ||| 0x00000000#32 ||| (ch.setWidth 32 <<< 8) := wordOf_eq_or ..
    _ = 0x80000083#32 ||| (ch.setWidth 32 <<< 8) := by rw [BitVec.or_zero]

end Sys2Proof

namespace Sys2Proof.Machine

theorem called_called (s : State) (es fs : List Effect) : (s.called es).called fs = s.called (es ++ fs) := by
  simp only [State.called, List.append_assoc]

/-! ## Start of frame -/

/-- The frame that has its buffer (R183, R196): a dropped JPEG frame is not entered, any other JPEG frame is requested. -/
theorem startFrame_eq (d : Bool) (s : State) :
    startFrame d s = State.called
      { s with
        line := 0#32, drop := d, inFrame := !(decide (cfgPixFmt s.cfg = .jpeg) && d),
        reqEn := (decide (cfgPixFmt s.cfg = .jpeg) && !d) || s.reqEn }
      (if cfgPixFmt s.cfg = .jpeg ∧ d = false then [.throttle, .reqEnable] else [.throttle]) := by
  unfold startFrame
  by_cases hjpeg : cfgPixFmt s.cfg = .jpeg
  · cases d with
    | true => simp [hjpeg, State.called, emit]
    | false => simp [hjpeg, State.called, emit]
  · simp [hjpeg, State.called, emit]

/-- An acted-on start of frame with a buffer for it (R183, R225). -/
theorem exec_evSof_of_available {s : State} (d : Bool) (he : cfgEngine s.cfg = .raster) (ha : s.active = true)
    (hb : BufferAvailable s) :
    exec (.evSof d) s =
      .next (startFrame d { s with bufs := s.bufs.set s.tail.toNat ⟨.writing, 0#32, 0#3⟩, wrValid := true }) := by
  have hacts : ¬ (cfgEngine s.cfg ≠ .raster ∨ s.active = false) := by simp [he, ha]
  simp only [exec, execEvSof]
  rw [if_neg hacts, frameStartBuffer_available hb]

/-- Settles O42: the buffer at `tail` is taken or restarted, and the frame starts with it. -/
theorem sofStartsFrame : Obligations.SofStartsFrame := by
  refine ⟨by decide, by decide, fun s d he ha hb => ?_⟩
  rw [exec_evSof_of_available d he ha hb, startFrame_eq]

/-! ## Raster lines -/

theorem inWindow_iff (s : State) : inWindow s s.line.toNat = true ↔ LineInWindow s := by
  simp only [inWindow, LineInWindow, Bool.and_eq_true, decide_eq_true_eq]

section
variable {s : State} {mask : BitVec 8}

/-- An acted-on line above or below the crop window (R184). -/
theorem exec_evLineRaster_outside (h : LineActs s) (hw : ¬ LineInWindow s) :
    exec (.evLineRaster mask) s = .next { s with line := s.line + 1#32 } := by
  rw [exec_evLineRaster s mask h, rasterLineBody]
  exact congrArg finish (if_neg (mt (inWindow_iff s).1 hw))

/-- An acted-on line of the window in a dropped frame (R186). -/
theorem exec_evLineRaster_dropped (h : LineActs s) (hw : LineInWindow s) (hd : s.drop = true) :
    exec (.evLineRaster mask) s = .next (countLine { s with line := s.line + 1#32 }) := by
  rw [exec_evLineRaster s mask h, rasterLineBody]
  exact congrArg finish ((if_pos (inWindow_of hw)).trans (if_pos hd))

/-- An acted-on line of the window in any other frame, once `CopyLine` has answered (R184). -/
theorem exec_evLineRaster_of_copyLine {u : State} (h : LineActs s) (hw : LineInWindow s) (hd : s.drop = false)
    (hcopy : copyLine (s.line.toNat - (cfgY s.cfg).toNat) s.port.pay mask { s with line := s.line + 1#32 } = .ok u) :
    exec (.evLineRaster mask) s = .next (countLine u) := by
  rw [exec_evLineRaster_in s mask h hw hd, hcopy]
  rfl

end

/-- Settles O43: the other branch of the window test. -/
theorem lineOutsideWindow : Obligations.LineOutsideWindow :=
  ⟨wordOf_evLine, fun _ _ => exec_evLineRaster_outside⟩

/-- Settles O45: a dropped frame's line goes straight to the count. -/
theorem droppedLineCounted : Obligations.DroppedLineCounted := by
  intro s mask h hw hd htail
  exact ⟨_, countLine_counted { s with line := s.line + 1#32 } htail, exec_evLineRaster_dropped h hw hd⟩

/-- Settles O44: `CopyLine` without DMA is one write of the store (R188). -/
theorem lineCopied : Obligations.LineCopied := by
  intro s mask h hw hd hdma htail hfits
  have hcopy : copyLine (s.line.toNat - (cfgY s.cfg).toNat) s.port.pay mask { s with line := s.line + 1#32 } =
      .ok { s with
        fb := Memory.setRange s.fb (fbKey s.tail.toNat (rowStart s)) (visibleBytes s), line := s.line + 1#32 } :=
    (if_pos hdma).trans (fbWrite_inStore { s with line := s.line + 1#32 } s.tail (rowStart s) (visibleBytes s) hfits)
  exact ⟨_, _, storedAt_setRange _ _ _, countLine_counted _ htail, exec_evLineRaster_of_copyLine h hw hd hcopy⟩

/-! ## Raster lines given to the DMA engine -/

/-- The store once the record still pending on a handle has landed (R187, R194). -/
def landedStore (s : State) (ch : Nat) : Memory :=
  match s.pendingAt ch with
  | none => s.fb
  | some old => Memory.setRange s.fb (fbKey old.buf.toNat old.off) old.bytes

theorem landedStore_of_none {s : State} {ch : Nat} (h : s.pendingAt ch = none) : landedStore s ch = s.fb := by
  rw [landedStore, h]

theorem landedStore_of_some {s : State} {ch : Nat} {old : Transfer} (h : s.pendingAt ch = some old) :
    landedStore s ch = Memory.setRange s.fb (fbKey old.buf.toNat old.off) old.bytes := by
  rw [landedStore, h]

/-- A successful submission, whether or not a record is still pending on the handle (R187). -/
theorem recordTransfer_eq (s : State) (ch : Nat) (t : Transfer)
    (hold : ∀ old, s.pendingAt ch = some old → inStore s.prm old.buf old.off old.bytes.length = true) :
    recordTransfer ch t s = .ok (State.called
      { s with fb := landedStore s ch, pending := s.pending.set ch (some t) } [.dmaTrigger ch]) := by
  unfold recordTransfer
  cases hp : s.pendingAt ch with
  | none =>
    rw [landedStore_of_none hp]
    rfl
  | some old =>
    simp only [land_inStore s ch old (hold old hp), landedStore_of_some hp, State.setPending, List.set_set]
    rfl

/-- `s` after `n` attempts to submit a row to the handle `rr`, which moves on whatever they were answered (R187). -/
def rowAttempted (s : State) (row n : Nat) : State :=
  State.called { s with rr := BitVec.ofNat 8 ((s.rr.toNat + 1) % s.prm.nch) }
    (List.replicate n (submitEffect s s.rr.toNat (rowOffset s row)))

section
variable {s : State} {mask : BitVec 8} (hdma : s.dmaEn = true) (row : Nat) (pay : List Byte) {n : Nat}
include hdma

/-- `CopyLine` with DMA when the attempts end in success (R187). -/
theorem copyLine_of_submitted (ha : dmaAttempts mask s.prm.dmaRetry 0 = (n, true)) :
    copyLine row pay mask s =
      recordTransfer s.rr.toNat ⟨s.tail, rowOffset s row, lineWindow s pay⟩ (rowAttempted s row n) := by
  rw [copyLine, if_neg (by simp [hdma]), copyLineDma, ha]
  rfl

/-- `CopyLine` with DMA when every attempt is answered busy (R187, R297). -/
theorem copyLine_of_exhausted (ha : dmaAttempts mask s.prm.dmaRetry 0 = (n, false)) :
    copyLine row pay mask s = .ok (State.traced { rowAttempted s row n with drop := true } .droppedFrame) := by
  rw [copyLine, if_neg (by simp [hdma]), copyLineDma, ha]
  rfl

end

/-- Settles O46: the attempts up to the first one not answered busy, the landing, and the record. -/
theorem lineSubmitted : Obligations.LineSubmitted := by
  intro s mask k h hw hd hdma htail _ hold hk hfree hbusy
  have hattempts : dmaAttempts mask s.prm.dmaRetry 0 = (k + 1, true) :=
    dmaAttempts_ok mask k hfree s.prm.dmaRetry 0 (Nat.zero_le k) (by omega) fun j _ hj => hbusy j hj
  have hcopy := (copyLine_of_submitted (s := { s with line := s.line + 1#32 }) hdma
    (s.line.toNat - (cfgY s.cfg).toNat) s.port.pay hattempts).trans (recordTransfer_eq _ _ _ hold)
  refine ⟨landedStore s s.rr.toNat, _, landedStore_of_none, fun old hp => ?landed, ?counted,
    exec_evLineRaster_of_copyLine h hw hd hcopy⟩
  case landed =>
    rw [landedStore_of_some hp]
    exact storedAt_setRange _ _ _
  case counted =>
    rw [← called_called]
    exact countLine_counted _ htail

/-- Settles O47: all the attempts, and then the count of a line of a frame marked dropped. -/
theorem lineSubmissionExhausted : Obligations.LineSubmissionExhausted := by
  intro s mask h hw hd hdma htail hbusy
  have hattempts : dmaAttempts mask s.prm.dmaRetry 0 = (s.prm.dmaRetry, false) :=
    dmaAttempts_busy mask s.prm.dmaRetry 0 fun j _ hj => hbusy j (by omega)
  have hcopy := copyLine_of_exhausted (s := { s with line := s.line + 1#32 }) hdma
    (s.line.toNat - (cfgY s.cfg).toNat) s.port.pay hattempts
  exact ⟨_, countLine_counted _ htail, exec_evLineRaster_of_copyLine h hw hd hcopy⟩

end Sys2Proof.Machine
end

section
/-! PROOFS. The JPEG lines (42_line_engine R190 to R193): one that overflows the buffer and one that is appended; and the
completion of a transfer (R194). -/

namespace Sys2Proof.Machine

/-! ## JPEG lines -/

/-- `JpegFrameEnd` (R193): the commit, then the request is withdrawn. -/
theorem jpegFrameEnd_eq (s : State) :
    jpegFrameEnd s = State.called
      { s with
        bufs := s.bufs.set s.tail.toNat
          { s.buf s.tail with st := .readable, bflags := (s.buf s.tail).bflags ||| 4#3 },
        inFrame := false, reqEn := false, wrValid := false, tail := after s s.tail }
      (callbackOf s ++ [.reqDisable]) := by
  rw [jpegFrameEnd, commit_eq]
  exact called_called
    { s with
      bufs := s.bufs.set s.tail.toNat { s.buf s.tail with st := .readable, bflags := (s.buf s.tail).bflags ||| 4#3 },
      inFrame := false, reqEn := false, wrValid := false, tail := after s s.tail }
    (callbackOf s) [.reqDisable]

/-- `JpegFrameEnd` right after the descriptor at `tail` was written: it commits that descriptor. -/
theorem jpegFrameEnd_setBuf {s : State} (b : Buf) (htail : s.tail.toNat < s.bufs.length) :
    jpegFrameEnd (s.setBuf s.tail b) = State.called
      { s with
        bufs := s.bufs.set s.tail.toNat { b with st := .readable, bflags := b.bflags ||| 4#3 },
        inFrame := false, reqEn := false, wrValid := false, tail := after s s.tail }
      (callbackOf s ++ [.reqDisable]) := by
  have hb : (s.setBuf s.tail b).buf (s.setBuf s.tail b).tail = b := buf_setBuf s s.tail b htail
  rw [jpegFrameEnd_eq, hb]
  simp only [State.setBuf, List.set_set]
  rfl

/-- The flags of a frame that overflowed (R192), committed with the checked form (R134). -/
theorem setStored_overflow_or_checked (b : BitVec 3) : setStored b flagOverflow ||| 4#3 = b ||| 5#3 := by
  revert b
  decide

/-- `JpegOverflow` (R192): the descriptor at `tail` is flagged, then committed. -/
theorem jpegOverflow_eq {s : State} (htail : s.tail.toNat < s.bufs.length) :
    jpegOverflow s = State.called
      { s with
        bufs := s.bufs.set s.tail.toNat
          { s.buf s.tail with st := .readable, bflags := (s.buf s.tail).bflags ||| 5#3 },
        inFrame := false, reqEn := false, wrValid := false, tail := after s s.tail }
      (callbackOf s ++ [.reqDisable]) := by
  rw [jpegOverflow, jpegFrameEnd_setBuf _ htail, setStored_overflow_or_checked]

/-- Settles O49: the branch of the body for a line that does not fit. -/
theorem jpegLineOverflows : Obligations.JpegLineOverflows := by
  intro s mask h hover htail
  have hbody : jpegLineBody s.port.pay s = .ok (jpegOverflow { s with line := s.line + 1#32 }) := if_pos hover
  rw [exec_evLineJpeg s mask h, hbody]
  exact congrArg _ (jpegOverflow_eq (s := { s with line := s.line + 1#32 }) htail)

/-- `s` with the stream bytes of a JPEG line appended to the buffer at `tail` (R190, R191). -/
def lineAppended (pay : List Byte) (s : State) : State :=
  State.setBuf
    { s with fb := Memory.setRange s.fb (fbKey s.tail.toNat (s.buf s.tail).woff.toNat) (jpegStream pay) }
    s.tail { s.buf s.tail with woff := BitVec.ofNat 32 ((s.buf s.tail).woff.toNat + jpegLen pay) }

/-- The append and the scan of a JPEG line that fits (R190, R191, R193). -/
theorem jpegAppend_eq {s : State} (pay : List Byte) (hfits : (s.buf s.tail).woff.toNat + jpegLen pay ≤ s.prm.cap)
    (hstore : s.tail.toNat < s.prm.nmax) :
    jpegAppend pay s = .ok
      (if eoiIn (lineAppended pay s) s.tail (s.buf s.tail).woff.toNat ((s.buf s.tail).woff.toNat + jpegLen pay)
       then jpegFrameEnd (lineAppended pay s) else lineAppended pay s) := by
  have hlen : (jpegStream pay).length ≤ jpegLen pay := List.length_take_le _ _
  have hin : inStore s.prm s.tail (s.buf s.tail).woff.toNat (jpegStream pay).length = true :=
    (inStore_iff ..).2 ⟨hstore, by omega⟩
  rw [jpegAppend, fbWrite_inStore s s.tail _ _ hin]
  rfl

/-- `s` with the JPEG line on the port counted and appended (R190). -/
def jpegLineTaken (s : State) : State := lineAppended s.port.pay { s with line := s.line + 1#32 }

/-- An acted-on JPEG line that fits (R190, R193). -/
theorem exec_evLineJpeg_of_fits {s : State} {mask : BitVec 8} (h : JpegLineActs s)
    (hfits : (s.buf s.tail).woff.toNat + jpegLen s.port.pay ≤ s.prm.cap) (hstore : s.tail.toNat < s.prm.nmax) :
    exec (.evLineJpeg mask) s = .next
      (if eoiIn (jpegLineTaken s) s.tail (s.buf s.tail).woff.toNat ((s.buf s.tail).woff.toNat + jpegLen s.port.pay)
       then jpegFrameEnd (jpegLineTaken s) else jpegLineTaken s) := by
  have hbody : jpegLineBody s.port.pay s = jpegAppend s.port.pay { s with line := s.line + 1#32 } :=
    if_neg (Nat.not_lt.2 hfits)
  rw [exec_evLineJpeg s mask h, hbody]
  exact congrArg finish (jpegAppend_eq (s := { s with line := s.line + 1#32 }) s.port.pay hfits hstore)

/-- Settles O48: the scan of the window decides whether the frame goes on (R193). -/
theorem jpegLineAppended : Obligations.JpegLineAppended := by
  refine ⟨wordOf_evLine, fun s mask h hfits hstore htail => ?_⟩
  intro old b
  have hexec := exec_evLineJpeg_of_fits (mask := mask) h hfits hstore
  have hscan := eoiIn_iff (jpegLineTaken s) old (old + jpegLen s.port.pay)
  refine ⟨(jpegLineTaken s).fb, storedAt_setRange _ _ _, fun hno => ?goesOn, fun hfound => ?ends⟩
  case goesOn => exact hexec.trans (congrArg _ (if_neg (mt hscan.1 hno)))
  case ends =>
    have hend : jpegFrameEnd (jpegLineTaken s) = _ := jpegFrameEnd_setBuf b htail
    exact hexec.trans (congrArg _ ((if_pos (hscan.2 hfound)).trans hend))

/-! ## DMA completion -/

/-- An acted-on completion with a record pending (R194). -/
theorem exec_evDmaDone_of_pending {s : State} {ch : BitVec 8} {t : Transfer} (he : cfgEngine s.cfg = .raster)
    (hch : ch.toNat < s.prm.nch) (hp : s.pendingAt ch.toNat = some t) :
    exec (.evDmaDone ch) s = finish (land s ch.toNat t) := by
  have hacts : ¬ (cfgEngine s.cfg ≠ .raster ∨ s.prm.nch ≤ ch.toNat) := by simp [he, hch]
  simp only [exec, execEvDmaDone]
  rw [if_neg hacts, hp]

/-- Settles O50: the record lands. -/
theorem dmaDoneLands : Obligations.DmaDoneLands := by
  refine ⟨wordOf_evDmaDone, fun s ch t he hch hp hin => ⟨_, storedAt_setRange _ _ _, ?_⟩⟩
  rw [exec_evDmaDone_of_pending he hch hp, land_inStore s ch.toNat t hin]
  rfl

end Sys2Proof.Machine
end

section
/-! PROOFS. What the engines discard, and when they lose sync or find no buffer (43_sync_recovery R221 to R227); which
packet commits a buffer (R231). -/

namespace Sys2Proof.Machine

/-! ## Packets that are not placed (41_packet_engine R161, steps 1 to 4, and step 5 without a buffer) -/

section
variable {s : State} (h : PacketActs s)
include h

/-- The don't-care test comes before every other (R221). -/
theorem exec_evPkt_of_dontCare (hdc : DontCarePacket s) : exec .evPkt s = .next s := by
  obtain ⟨he, ha, hlen⟩ := h
  have hacts : ¬ (cfgEngine s.cfg ≠ .serial ∨ s.active = false) := by simp [he, ha]
  have hclass : decodePacket s.prm s.multi s.port.pay = .dontCare := if_pos hdc
  calc exec .evPkt s
      = if s.port.pay.length ≠ packetLen s.prm then .refused .packetLength else finish (packetBody s.port.pay s) :=
        if_neg hacts
    _ = finish (packetBody s.port.pay s) := if_neg (not_not.2 hlen)
    _ = .next s := by rw [packetBody, hclass]; rfl

variable (hdc : ¬ DontCarePacket s)
include hdc

/-- Hunting for packet 0 (R222). -/
theorem exec_evPkt_of_waitingForPacketZero (hzero : WaitingForPacketZero s) : exec .evPkt s = .next s := by
  obtain ⟨d, hclass, hexec⟩ := exec_evPkt s h hdc
  rw [hexec, packetSteps, pid_eq hclass, if_pos hzero]
  rfl

/-- The good first packet of a frame that gets no buffer (R161, R225). -/
theorem exec_evPkt_of_noBuffer (hgood : GoodPacket s) (hstart : AtFrameStart s) (hnone : frameStartBuffer s = none) :
    exec .evPkt s = .next (noBufferAbort s) := by
  rw [exec_evPkt_good s h hdc hgood, if_pos hstart, hnone]
  rfl

variable (hzero : ¬ WaitingForPacketZero s)
include hzero

/-- Hunting for segment 0 (R223). -/
theorem exec_evPkt_of_waitingForSegmentZero (hseg : WaitingForSegmentZero s) :
    exec .evPkt s = .next { s with expPid := 0#12 } := by
  obtain ⟨d, hclass, hexec⟩ := exec_evPkt s h hdc
  rw [hexec, packetSteps, pid_eq hclass, if_neg hzero, if_pos ((hunt_iff hclass).2 hseg)]
  rfl

/-- A packet that passes the hunt and fails validation (R224). -/
theorem exec_evPkt_of_not_good (hseg : ¬ WaitingForSegmentZero s) (hbad : ¬ GoodPacket s) :
    exec .evPkt s = .next (syncLost s) := by
  obtain ⟨d, hclass, hexec⟩ := exec_evPkt s h hdc
  have hinvalid : packetValid s d s.port.pay = false := Bool.eq_false_of_not_eq_true (mt (valid_iff hclass).1 hbad)
  rw [hexec, packetSteps, pid_eq hclass, if_neg hzero, if_neg (mt (hunt_iff hclass).1 hseg), if_pos hinvalid]
  rfl

end

/-- An acted-on start of frame that gets no buffer (R183, R225). -/
theorem exec_evSof_of_noBuffer {s : State} (d : Bool) (he : cfgEngine s.cfg = .raster) (ha : s.active = true)
    (hnone : frameStartBuffer s = none) : exec (.evSof d) s = .next (noBufferAbort s) := by
  have hacts : ¬ (cfgEngine s.cfg ≠ .raster ∨ s.active = false) := by simp [he, ha]
  rw [exec, execEvSof, if_neg hacts, hnone]

/-- Settles O37: steps 1, 2 and 3 of R161, each reached when those before it let the packet pass. -/
theorem packetsDiscarded : Obligations.PacketsDiscarded := fun _ h =>
  ⟨exec_evPkt_of_dontCare h, exec_evPkt_of_waitingForPacketZero h, exec_evPkt_of_waitingForSegmentZero h⟩

/-- Settles O38: `SyncLost` traces and then aborts (R227). -/
theorem invalidPacketLosesSync : Obligations.InvalidPacketLosesSync := by
  intro s h hdc hzero hseg hbad
  exact ⟨syncLost s, doAbort_aborted (traceLabel .syncLost s), exec_evPkt_of_not_good h hdc hzero hseg hbad⟩

/-- Settles O41: both engines ask `FrameStartBuffer` for the buffer at `tail`. -/
theorem noBufferAborts : Obligations.NoBufferAborts := by
  intro s htail hunavailable
  have hnone : frameStartBuffer s = none := frameStartBuffer_none htail hunavailable
  have haborted : Aborted (s.traced .noBuffer) (noBufferAbort s) := doAbort_aborted (traceLabel .noBuffer s)
  refine ⟨fun h hdc hgood hstart => ?packet, fun he ha d => ?startOfFrame⟩
  case packet => exact ⟨_, haborted, exec_evPkt_of_noBuffer h hdc hgood hstart hnone⟩
  case startOfFrame => exact ⟨_, haborted, exec_evSof_of_noBuffer d he ha hnone⟩

/-! ## Where a buffer can become READABLE (R231) -/

/-- Every READABLE buffer of `t` is READABLE in `s`. -/
def NoNewReadable (s t : State) : Prop := ∀ j : BitVec 8, (t.buf j).st = .readable → (s.buf j).st = .readable

theorem NoNewReadable.trans {s t u : State} (hst : NoNewReadable s t) (htu : NoNewReadable t u) : NoNewReadable s u :=
  fun j hj => hst j (htu j hj)

theorem noNewReadable_of_bufs_eq {s t : State} (h : t.bufs = s.bufs) : NoNewReadable s t := by
  intro j hj
  rwa [State.buf, h] at hj

/-- Writing an entry that is READABLE only if the one before was. -/
theorem noNewReadable_setBuf {s : State} {i : BitVec 8} {b : Buf}
    (hb : b.st = .readable → (s.buf i).st = .readable) : NoNewReadable s (s.setBuf i b) := by
  intro j hj
  by_cases hji : j = i
  · subst hji
    have hlen : j.toNat < s.bufs.length := by
      have hentry := lt_length_of_st_ne_free (s := s.setBuf j b) (i := j) (by simp [hj])
      rwa [setBuf_bufs, List.length_set] at hentry
    rw [buf_setBuf s j b hlen] at hj
    exact hb hj
  · rwa [buf_setBuf_ne s i j b hji] at hj

/-- A buffer that is taken becomes WRITING, and one that is restarted keeps its owner (R225). -/
theorem noNewReadable_of_frameStartBuffer {s t : State} (h : frameStartBuffer s = some t) : NoNewReadable s t := by
  unfold frameStartBuffer at h
  split at h
  case isTrue =>
    cases h
    exact noNewReadable_setBuf id
  case isFalse =>
    split at h
    case isTrue =>
      cases h
      exact noNewReadable_setBuf (b := ⟨.writing, 0#32, 0#3⟩) nofun
    case isFalse => cases h

/-- `Place` writes bytes of the store and the cursor of the buffer at `tail` (R163). -/
theorem place_ok {s t : State} {pid : BitVec 12} {pay : List Byte} (h : place pid pay s = .ok t) :
    ∃ fb woff, t = setWoff { s with fb := fb } s.tail woff := by
  unfold place at h
  split at h
  case h_1 u hu =>
    obtain ⟨-, rfl⟩ := fbWrite_ok hu
    exact ⟨_, _, (Except.ok.inj h).symm⟩
  case h_2 => cases h

theorem acceptPacket_ok {s t : State} {pid : BitVec 12} {pay : List Byte} (h : acceptPacket pid pay s = .ok t) :
    ∃ u, place pid pay s = .ok u ∧ t = advancePacket u := by
  unfold acceptPacket at h
  split at h
  case h_1 u hu => exact ⟨u, hu, (Except.ok.inj h).symm⟩
  case h_2 => cases h

/-- `Advance` makes a buffer READABLE only by the commit at the end of a frame (R164, R134). -/
theorem newReadable_of_advancePacket {s : State} {j : BitVec 8} (hold : (s.buf j).st ≠ .readable)
    (hnew : ((advancePacket s).buf j).st = .readable) : AtFrameEnd s ∧ j = s.tail := by
  by_cases hend : AtFrameEnd s
  · refine ⟨hend, by_contra fun hj => hold ?_⟩
    rwa [advancePacket_of_frameEnd hend, State.buf, commit_bufs, ← setBuf_bufs, ← State.buf, buf_setBuf_ne _ _ _ _ hj]
      at hnew
  · rw [advancePacket_of_not_frameEnd hend] at hnew
    exact absurd hnew hold

/-- The good packet is accepted in `u`: in the state that `FrameStartBuffer` gives for the first packet of a frame, and
in `s` itself for every other (R161, step 5). -/
def FrameOpened (s u : State) : Prop := if AtFrameStart s then frameStartBuffer s = some u else u = s

/-- `FrameStartBuffer` writes the descriptor file and the token alone. -/
theorem FrameOpened.eq {s u : State} (h : FrameOpened s u) :
    ∃ bufs wrValid, u = { s with bufs := bufs, wrValid := wrValid } := by
  unfold FrameOpened at h
  split at h
  · exact frameStartBuffer_some h
  · exact ⟨s.bufs, s.wrValid, h⟩

theorem FrameOpened.noNewReadable {s u : State} (h : FrameOpened s u) : NoNewReadable s u := by
  unfold FrameOpened at h
  split at h
  · exact noNewReadable_of_frameStartBuffer h
  · exact noNewReadable_of_bufs_eq (congrArg State.bufs h)

/-- An `EV_PKT` that does not carry one packet, or is not acted on, changes nothing if it answers at all (R301, U6). -/
theorem eq_of_exec_evPkt_of_not_acts {s t : State} (hx : exec .evPkt s = .next t) (h : ¬ PacketActs s) : t = s := by
  rw [exec, execEvPkt] at hx
  split at hx
  case isTrue => exact (Host.Outcome.next.inj hx).symm
  case isFalse hacts =>
    simp only [ne_eq, not_or, not_not, Bool.not_eq_false] at hacts
    obtain ⟨he, ha⟩ := hacts
    split at hx
    case isTrue => cases hx
    case isFalse hlen => exact absurd ⟨he, ha, not_not.1 hlen⟩ h

/-- What a packet can do: it leaves the descriptor file as it was, or it is good and accepted (R161). -/
theorem cases_of_exec_evPkt {s t : State} (hx : exec .evPkt s = .next t) :
    t.bufs = s.bufs ∨
    (PacketActs s ∧ ¬ DontCarePacket s ∧ GoodPacket s ∧
      ∃ u, FrameOpened s u ∧ acceptPacket s.expPid s.port.pay u = .ok t) := by
  have kept {u : State} (hu : exec .evPkt s = .next u) (hbufs : u.bufs = s.bufs) : t.bufs = s.bufs := by
    cases hu.symm.trans hx
    exact hbufs
  by_cases h : PacketActs s
  case neg => exact .inl (congrArg State.bufs (eq_of_exec_evPkt_of_not_acts hx h))
  by_cases hdc : DontCarePacket s
  case pos => exact .inl (kept (exec_evPkt_of_dontCare h hdc) rfl)
  by_cases hgood : GoodPacket s
  case neg =>
    by_cases hzero : WaitingForPacketZero s
    case pos => exact .inl (kept (exec_evPkt_of_waitingForPacketZero h hdc hzero) rfl)
    by_cases hseg : WaitingForSegmentZero s
    case pos => exact .inl (kept (exec_evPkt_of_waitingForSegmentZero h hdc hzero hseg) rfl)
    case neg => exact .inl (kept (exec_evPkt_of_not_good h hdc hzero hseg hgood) rfl)
  by_cases hstart : AtFrameStart s
  case neg =>
    rw [exec_evPkt_good s h hdc hgood, if_neg hstart] at hx
    exact .inr ⟨h, hdc, hgood, s, (if_neg hstart).mpr rfl, finish_next hx⟩
  cases hframe : frameStartBuffer s with
  | none => exact .inl (kept (exec_evPkt_of_noBuffer h hdc hgood hstart hframe) rfl)
  | some u =>
    rw [exec_evPkt_good s h hdc hgood, if_pos hstart, hframe] at hx
    exact .inr ⟨h, hdc, hgood, u, (if_pos hstart).mpr hframe, finish_next hx⟩

/-- Settles O54: a packet that leaves a new READABLE buffer is accepted, neither taking the buffer nor placing the packet
makes one READABLE, and so `Advance` committed the buffer at `tail`. -/
theorem noPartialCommit : Obligations.NoPartialCommit := by
  intro s t j hx hold hnew
  rcases cases_of_exec_evPkt hx with hbufs | ⟨h, hdc, hgood, u, hopen, haccept⟩
  case inl => exact absurd (noNewReadable_of_bufs_eq hbufs j hnew) hold
  case inr =>
    obtain ⟨v, hplace, rfl⟩ := acceptPacket_ok haccept
    obtain ⟨fb, woff, rfl⟩ := place_ok hplace
    have hkept : NoNewReadable s (setWoff { u with fb := fb } u.tail woff) :=
      (hopen.noNewReadable.trans (noNewReadable_of_bufs_eq rfl)).trans (noNewReadable_setBuf id)
    obtain ⟨hend, hj⟩ := newReadable_of_advancePacket (mt (hkept j) hold) hnew
    obtain ⟨bufs, wrValid, rfl⟩ := hopen.eq
    exact ⟨h, hdc, hgood, hend, hj⟩

end Sys2Proof.Machine
end

section
/-! PROOFS. A buffer that the consumer holds (44_snapshot_control R270, 70_reset_and_hazards R342): what each procedure
leaves of a buffer other than the ones it writes, and why none of them writes a HELD buffer. -/

namespace Sys2Proof.Machine

/-! ## Keeping a buffer -/

/-- No pending transfer is into buffer `j` (R38). -/
def Untargeted (j : BitVec 8) (s : State) : Prop := ∀ r, some r ∈ s.pending → r.buf ≠ j

/-- From `s` to `t` buffer `j` keeps its descriptor, and, unless a transfer into it is pending, its bytes; nor does a
transfer into it become pending. -/
structure BufferKept (j : BitVec 8) (s t : State) : Prop where
  prm : t.prm = s.prm
  entry : t.buf j = s.buf j
  untargeted : Untargeted j s → Untargeted j t
  bytes : Untargeted j s → ∀ k, k < s.prm.cap → fbByte t j k = fbByte s j k

/-- The registers that say what is in the buffers and what is still on its way into them. -/
def State.bufferView (s : State) : Params × List Buf × Memory × List (Option Transfer) :=
  (s.prm, s.bufs, s.fb, s.pending)

theorem bufferKept_of_view {j : BitVec 8} {s t : State} (h : t.bufferView = s.bufferView) : BufferKept j s t := by
  simp only [State.bufferView, Prod.mk.injEq] at h
  obtain ⟨hprm, hbufs, hfb, hpending⟩ := h
  refine ⟨hprm, ?_, ?_, fun _ k _ => ?_⟩
  · rw [State.buf, State.buf, hbufs]
  · rw [Untargeted, Untargeted, hpending]
    exact id
  · rw [fbByte, fbByte, hfb]

theorem BufferKept.trans {j : BitVec 8} {s t u : State} (hst : BufferKept j s t) (htu : BufferKept j t u) :
    BufferKept j s u where
  prm := htu.prm.trans hst.prm
  entry := htu.entry.trans hst.entry
  untargeted h := htu.untargeted (hst.untargeted h)
  bytes h k hk := (htu.bytes (hst.untargeted h) k (hst.prm.symm ▸ hk)).trans (hst.bytes h k hk)

theorem BufferKept.congr {j : BitVec 8} {s t u : State} (h : BufferKept j s t) (hu : u.bufferView = t.bufferView) :
    BufferKept j s u :=
  h.trans (bufferKept_of_view hu)

theorem BufferKept.congr_left {j : BitVec 8} {s t u : State} (h : BufferKept j t u)
    (ht : t.bufferView = s.bufferView) : BufferKept j s u :=
  (bufferKept_of_view ht).trans h

/-- A HELD buffer is none of the buffers in another state. -/
theorem ne_of_held {s : State} {i j : BitVec 8} (hheld : (s.buf j).st = .held) (hi : (s.buf i).st ≠ .held) :
    j ≠ i := by
  rintro rfl
  exact hi hheld

/-! ## The operations on the state -/

section
variable {j : BitVec 8} {s t : State}

theorem bufferKept_setBuf {i : BitVec 8} (hj : j ≠ i) (b : Buf) : BufferKept j s (s.setBuf i b) :=
  ⟨rfl, buf_setBuf_ne s i j b hj, id, fun _ _ _ => rfl⟩

theorem bufferKept_setPending {r : Transfer} (hj : j ≠ r.buf) (ch : Nat) :
    BufferKept j s (s.setPending ch (some r)) := by
  refine ⟨rfl, rfl, fun h r' hr' => ?_, fun _ _ _ => rfl⟩
  rcases List.mem_or_eq_of_mem_set hr' with hr' | hr'
  · exact h r' hr'
  · exact Option.some.inj hr' ▸ hj.symm

theorem bufferKept_of_fbWrite {i : BitVec 8} {off : Nat} {bytes : List Byte} (hcap : s.prm.cap < 2 ^ 32) (hj : j ≠ i)
    (hw : fbWrite s i off bytes = .ok t) : BufferKept j s t := by
  obtain ⟨hin, rfl⟩ := fbWrite_ok hw
  obtain ⟨-, hoff⟩ := (inStore_iff ..).1 hin
  refine ⟨rfl, rfl, id, fun _ k hk => ?_⟩
  rw [fbByte_setRange s i j off k bytes (by omega) (by omega), if_neg fun h => hj h.1]

/-- Landing a transfer writes the buffer that its record names (R194). -/
theorem bufferKept_of_land {ch : Nat} {r : Transfer} (hcap : s.prm.cap < 2 ^ 32) (hr : some r ∈ s.pending)
    (hl : land s ch r = .ok t) : BufferKept j s t := by
  obtain ⟨hin, rfl⟩ := land_ok hl
  obtain ⟨-, hoff⟩ := (inStore_iff ..).1 hin
  refine ⟨rfl, rfl, fun h r' hr' => ?_, fun h k hk => ?_⟩
  · exact h r' ((List.mem_or_eq_of_mem_set hr').resolve_right nofun)
  · exact (fbByte_setRange s r.buf j r.off k r.bytes (by omega) (by omega)).trans (if_neg fun hb => h r hr hb.1.symm)

/-- `EV_DMA_DONE` (R194). -/
theorem bufferKept_of_execEvDmaDone {ch : BitVec 8} (hcap : s.prm.cap < 2 ^ 32)
    (hx : execEvDmaDone ch s = .next t) : BufferKept j s t := by
  unfold execEvDmaDone at hx
  split at hx
  case isTrue =>
    cases hx
    exact bufferKept_of_view rfl
  case isFalse =>
    split at hx
    case h_1 =>
      cases hx
      exact bufferKept_of_view rfl
    case h_2 r hr => exact bufferKept_of_land hcap (mem_pending_of_pendingAt hr) (finish_next hx)

/-- A byte of a buffer that no transfer names is in no destination. -/
theorem not_inDestination_of_untargeted (hcap : s.prm.cap < 2 ^ 32) (h : Untargeted j s) {k : Nat}
    (hk : k < s.prm.cap) : ¬ InDestination s.prm s.pending (fbKey j.toNat k) := by
  rintro ⟨r, hr, hin, hlow, hhigh⟩
  obtain ⟨-, hoff⟩ := (inStore_iff ..).1 hin
  refine h r hr (BitVec.eq_of_toNat_eq ?_)
  simp only [fbKey] at hlow hhigh
  omega

/-- `DoAbort` writes the destinations of the transfers it cancels (R226). -/
theorem bufferKept_of_aborted (hcap : s.prm.cap < 2 ^ 32) (ht : Aborted s t) : BufferKept j s t := by
  obtain ⟨m, d, -, -, hm, rfl⟩ := ht
  refine ⟨rfl, rfl, fun _ r hr => absurd (List.eq_of_mem_replicate hr) nofun, fun h k hk => ?_⟩
  exact congrArg (Option.getD · (Config.powerOnByte j.toNat k)) (hm _ (not_inDestination_of_untargeted hcap h hk))

theorem bufferKept_doAbort (hcap : s.prm.cap < 2 ^ 32) : BufferKept j s (doAbort s) :=
  bufferKept_of_aborted hcap (doAbort_aborted s)

/-- A command writes what its body writes: its refusal writes the answer alone. -/
theorem bufferKept_of_command {refusal : Option Status} {body : State → State} (hc : command refusal s body = .next t)
    (hbody : BufferKept j s (body s)) : BufferKept j s t := by
  rcases command_next hc with ⟨e, -, rfl⟩ | ⟨-, rfl⟩
  · exact bufferKept_of_view rfl
  · exact hbody

/-! ## The procedures that write the buffer at `tail` -/

section
variable (hj : j ≠ s.tail)
include hj

theorem bufferKept_takeTail : BufferKept j s (takeTail s) :=
  (bufferKept_setBuf hj ⟨.writing, 0#32, 0#3⟩).congr rfl

theorem bufferKept_commit (checked : Bool) : BufferKept j s (commit checked s) :=
  (bufferKept_setBuf hj (committedBuf checked s)).congr (by rw [commit_eq]; rfl)

theorem bufferKept_of_frameStartBuffer (hf : frameStartBuffer s = some t) : BufferKept j s t := by
  unfold frameStartBuffer at hf
  split at hf
  · cases hf
    exact bufferKept_setBuf hj _
  · split at hf
    · cases hf
      exact bufferKept_takeTail hj
    · cases hf

/-! `Place` and `Advance` (R163, R164). -/

theorem bufferKept_of_place {pid : BitVec 12} {pay : List Byte} (hcap : s.prm.cap < 2 ^ 32)
    (hp : place pid pay s = .ok t) : BufferKept j s t := by
  unfold place at hp
  split at hp
  case h_1 u hu =>
    have hwrite : BufferKept j s u := bufferKept_of_fbWrite hcap hj hu
    cases hp
    exact hwrite.trans (bufferKept_setBuf hj _)
  case h_2 => cases hp

theorem bufferKept_advancePacket : BufferKept j s (advancePacket s) := by
  by_cases hend : AtFrameEnd s
  · rw [advancePacket_of_frameEnd hend]
    exact (bufferKept_commit (s := { s with expPid := 0#12, expSeg := 0#3 }) hj true).congr_left rfl
  · rw [advancePacket_of_not_frameEnd hend]
    exact bufferKept_of_view rfl

theorem bufferKept_of_acceptPacket {pid : BitVec 12} {pay : List Byte} (hcap : s.prm.cap < 2 ^ 32)
    (hp : acceptPacket pid pay s = .ok t) : BufferKept j s t := by
  obtain ⟨u, hplace, rfl⟩ := acceptPacket_ok hp
  have hkept : BufferKept j s u := bufferKept_of_place hj hcap hplace
  obtain ⟨fb, woff, rfl⟩ := place_ok hplace
  exact hkept.trans (bufferKept_advancePacket hj)

/-! The end of a line (R184, R189, R192, R193). -/

theorem bufferKept_rasterFrameEnd : BufferKept j s (rasterFrameEnd s) := by
  unfold rasterFrameEnd
  dsimp only
  split
  · exact (bufferKept_setBuf (s := { s with inFrame := false }) hj _).congr_left rfl
  · refine ((bufferKept_setBuf (s := { s with inFrame := false }) hj _).trans
      (bufferKept_commit ?_ true)).congr_left rfl
    exact hj

theorem bufferKept_countLine : BufferKept j s (countLine s) := by
  have hcounted : BufferKept j s (setWoff s s.tail ((s.buf s.tail).woff + 1#32)) := bufferKept_setBuf hj _
  unfold countLine
  dsimp only
  split
  · exact hcounted.trans (bufferKept_rasterFrameEnd hj)
  · exact hcounted

theorem bufferKept_jpegFrameEnd : BufferKept j s (jpegFrameEnd s) := by
  have hcommit : BufferKept j s (commit true { s with inFrame := false }) :=
    (bufferKept_commit (s := { s with inFrame := false }) hj true).congr_left rfl
  exact hcommit.congr rfl

theorem bufferKept_of_jpegAppend {pay : List Byte} (hcap : s.prm.cap < 2 ^ 32) (hp : jpegAppend pay s = .ok t) :
    BufferKept j s t := by
  unfold jpegAppend at hp
  dsimp only at hp
  split at hp
  case h_1 => cases hp
  case h_2 u hu =>
    have hwrite : BufferKept j s u := bufferKept_of_fbWrite hcap hj hu
    obtain ⟨-, rfl⟩ := fbWrite_ok hu
    cases hp
    split
    · exact (hwrite.trans (bufferKept_setBuf hj _)).trans (bufferKept_jpegFrameEnd hj)
    · exact hwrite.trans (bufferKept_setBuf hj _)

theorem bufferKept_of_jpegLineBody {pay : List Byte} (hcap : s.prm.cap < 2 ^ 32) (hl : jpegLineBody pay s = .ok t) :
    BufferKept j s t := by
  unfold jpegLineBody at hl
  dsimp only at hl
  split at hl
  · cases hl
    exact ((bufferKept_setBuf (s := { s with line := s.line + 1#32 }) hj _).trans
      (bufferKept_jpegFrameEnd hj)).congr_left rfl
  · exact (bufferKept_of_jpegAppend (s := { s with line := s.line + 1#32 }) hj hcap hl).congr_left rfl

/-! `CopyLine` (R187, R188): what a submission may land is a record that was pending before it. -/

theorem bufferKept_of_recordTransfer {ch : Nat} {r : Transfer} (hcap : s.prm.cap < 2 ^ 32) (hbuf : r.buf = s.tail)
    (hr : recordTransfer ch r s = .ok t) : BufferKept j s t := by
  have hr' : j ≠ r.buf := hbuf.symm ▸ hj
  unfold recordTransfer at hr
  split at hr
  case h_1 =>
    cases hr
    exact (bufferKept_setPending hr' ch).congr rfl
  case h_2 old hold =>
    split at hr
    case h_1 u hu =>
      cases hr
      have hland : BufferKept j s u := bufferKept_of_land hcap (mem_pending_of_pendingAt hold) hu
      exact (hland.trans (bufferKept_setPending hr' ch)).congr rfl
    case h_2 => cases hr

theorem bufferKept_of_copyLine {row : Nat} {pay : List Byte} {mask : BitVec 8} (hcap : s.prm.cap < 2 ^ 32)
    (hc : copyLine row pay mask s = .ok t) : BufferKept j s t := by
  cases hdma : s.dmaEn with
  | false =>
    rw [copyLine, if_pos hdma] at hc
    exact bufferKept_of_fbWrite hcap hj hc
  | true =>
    cases ha : dmaAttempts mask s.prm.dmaRetry 0 with
    | mk n submitted =>
      cases submitted with
      | false =>
        cases (copyLine_of_exhausted hdma row pay ha).symm.trans hc
        exact bufferKept_of_view rfl
      | true =>
        rw [copyLine_of_submitted hdma row pay ha] at hc
        exact (bufferKept_of_recordTransfer (s := rowAttempted s row n) hj hcap rfl hc).congr_left rfl

end

end

/-! ## A HELD buffer and the instructions -/

section
variable {j : BitVec 8} {s t : State} (hheld : (s.buf j).st = .held)
include hheld

theorem held_ne_tail_of_frameStartBuffer (hf : frameStartBuffer s = some t) : j ≠ s.tail := by
  refine ne_of_held hheld ?_
  unfold frameStartBuffer at hf
  split at hf
  case isTrue hst => simp [hst.1]
  case isFalse =>
    split at hf
    case isTrue hst => simp [hst]
    case isFalse => cases hf

theorem InRasterFrame.held_ne_tail {fmt : PixFmt} (hf : InRasterFrame fmt s) : j ≠ s.tail :=
  ne_of_held hheld (by simp [hf.tail_writing])

theorem bufferKept_acquireBody (flags : BitVec 8) : BufferKept j s (acquireBody flags s) := by
  unfold acquireBody
  split
  case isTrue hst =>
    split
    · exact bufferKept_of_view rfl
    · exact (bufferKept_takeTail (ne_of_held hheld (by simp [hst]))).congr rfl
  case isFalse => exact bufferKept_of_view rfl

theorem bufferKept_releaseBody (flags : BitVec 8) : BufferKept j s (releaseBody flags s) := by
  unfold releaseBody
  split
  case isTrue => exact bufferKept_of_view rfl
  case isFalse hst =>
    split
    · exact bufferKept_of_view rfl
    · exact (bufferKept_commit (ne_of_held hheld (by simp [not_not.1 hst])) _).congr rfl

theorem bufferKept_resetBufBody (idx : BitVec 8) : BufferKept j s (resetBufBody idx s) := by
  unfold resetBufBody
  split
  case isTrue => exact bufferKept_of_view rfl
  case isFalse hst =>
    obtain ⟨-, hwriting⟩ := not_or.1 hst
    exact (bufferKept_setBuf (ne_of_held hheld (by simp [not_not.1 hwriting])) _).congr rfl

/-- The buffer that the consumer takes is READABLE (R135). -/
theorem bufferKept_holdHead (hst : (s.buf s.head).st = .readable) : BufferKept j s (holdHead s) :=
  bufferKept_setBuf (ne_of_held hheld (by simp [hst])) _

theorem bufferKept_getHeadBody (flags : BitVec 8) : BufferKept j s (getHeadBody flags s) := by
  unfold getHeadBody
  split
  case isTrue hst =>
    split
    · exact bufferKept_of_view rfl
    · exact (bufferKept_holdHead hheld hst).congr rfl
  case isFalse => exact bufferKept_of_view rfl

/-! The wait loop (R263, R264). -/

theorem bufferKept_of_finalize (hst : (s.buf s.head).st = .readable) (hf : finalize s = .ok t) : BufferKept j s t := by
  have hhold : BufferKept j s (holdHead s) := bufferKept_holdHead hheld hst
  rcases finalize_ok hf with rfl | hdescribe
  · have hj : j ≠ s.head := ne_of_held hheld (by simp [hst])
    exact (hhold.trans (bufferKept_setBuf hj _)).congr rfl
  · obtain ⟨size, jpegSize, draws, rfl⟩ := describe_ok hdescribe
    exact hhold.congr rfl

variable (hcap : s.prm.cap < 2 ^ 32)
include hcap

theorem bufferKept_of_waitCheck (hw : waitCheck s = .ok t) : BufferKept j s t := by
  by_cases hst : (s.buf s.head).st = .readable
  · rw [waitCheck, if_pos hst] at hw
    split at hw
    case h_1 u hu =>
      cases hw
      exact (bufferKept_of_finalize hheld hst hu).congr rfl
    case h_2 => cases hw
  · rw [waitCheck, if_neg hst] at hw
    split at hw
    · cases hw
      exact bufferKept_of_view rfl
    · split at hw <;> cases hw
      · exact (bufferKept_doAbort hcap).congr rfl
      · exact bufferKept_of_view rfl

theorem bufferKept_of_execEvPoll (hx : execEvPoll s = .next t) : BufferKept j s t := by
  unfold execEvPoll at hx
  split at hx
  · cases hx
    exact bufferKept_of_view rfl
  · split at hx
    · exact (bufferKept_of_waitCheck (s := waiting (startCapture s)) hheld hcap (finish_next hx)).congr_left rfl
    · cases hx
      exact bufferKept_of_view rfl
  · exact bufferKept_of_waitCheck hheld hcap (finish_next hx)

/-! The engines: whatever they write is in the buffer at `tail`, which is then WRITING or about to be (R225). -/

theorem bufferKept_of_execEvSof {throttleDrop : Bool} (hx : execEvSof throttleDrop s = .next t) : BufferKept j s t := by
  unfold execEvSof at hx
  split at hx
  · cases hx
    exact bufferKept_of_view rfl
  · split at hx
    case h_1 =>
      cases hx
      exact (bufferKept_doAbort (s := traceLabel .noBuffer s) hcap).congr_left rfl
    case h_2 u hu =>
      cases hx
      rw [startFrame_eq]
      exact (bufferKept_of_frameStartBuffer (held_ne_tail_of_frameStartBuffer hheld hu) hu).congr rfl

end

section
variable {j : BitVec 8} {s t : State} (h : Inv s) (hheld : (s.buf j).st = .held)
include h

theorem Inv.cap_lt : s.prm.cap < 2 ^ 32 := by
  obtain ⟨⟨hprm, -⟩, -⟩ := h
  exact cap_lt_of_params_valid hprm

include hheld

/-- Steps 2 to 5 of R161. -/
theorem bufferKept_of_packetSteps {d : Packet} {pay : List Byte} (ha : s.active = true)
    (he : cfgEngine s.cfg = .serial) (hp : packetSteps d pay s = .ok t) : BufferKept j s t := by
  have hcap := h.cap_lt
  unfold packetSteps at hp
  split at hp
  case isTrue =>
    cases hp
    exact bufferKept_of_view rfl
  split at hp
  case isTrue =>
    cases hp
    exact bufferKept_of_view rfl
  split at hp
  case isTrue =>
    cases hp
    exact (bufferKept_doAbort (s := traceLabel .syncLost s) hcap).congr_left rfl
  split at hp
  case isTrue =>
    split at hp
    case h_1 =>
      cases hp
      exact (bufferKept_doAbort (s := traceLabel .noBuffer s) hcap).congr_left rfl
    case h_2 u hu =>
      have hj : j ≠ s.tail := held_ne_tail_of_frameStartBuffer hheld hu
      have hstart : BufferKept j s u := bufferKept_of_frameStartBuffer hj hu
      obtain ⟨bufs, wrValid, rfl⟩ := frameStartBuffer_some hu
      exact hstart.trans (bufferKept_of_acceptPacket hj hcap hp)
  case isFalse hmid =>
    have hj : j ≠ s.tail := ne_of_held hheld (by simp [h.tail_writing_of_midFrame ha he hmid])
    exact bufferKept_of_acceptPacket hj hcap hp

theorem bufferKept_of_execEvPkt (hx : execEvPkt s = .next t) : BufferKept j s t := by
  unfold execEvPkt at hx
  split at hx
  case isTrue =>
    cases hx
    exact bufferKept_of_view rfl
  case isFalse hacts =>
    simp only [ne_eq, not_or, not_not, Bool.not_eq_false] at hacts
    obtain ⟨he, ha⟩ := hacts
    split at hx
    case isTrue => cases hx
    case isFalse =>
      have hbody := finish_next hx
      unfold packetBody at hbody
      split at hbody
      case h_1 =>
        cases hbody
        exact bufferKept_of_view rfl
      case h_2 => exact bufferKept_of_packetSteps h hheld ha he hbody
      case h_3 => exact bufferKept_of_packetSteps h hheld ha he hbody

/-- A line that is copied leaves the frame as it was, so that its count finds the buffer at `tail` WRITING (R184). -/
theorem bufferKept_of_rasterLineBody {fmt : PixFmt} {mask : BitVec 8} {pay : List Byte} (hf : InRasterFrame fmt s)
    (hl : rasterLineBody mask pay s = .ok t) : BufferKept j s t := by
  have hj : j ≠ s.tail := hf.held_ne_tail hheld
  unfold rasterLineBody at hl
  dsimp only at hl
  split at hl
  case isFalse =>
    cases hl
    exact bufferKept_of_view rfl
  case isTrue hwindow =>
    split at hl
    case isTrue =>
      cases hl
      exact (bufferKept_countLine (s := { s with line := s.line + 1#32 }) hj).congr_left rfl
    case isFalse =>
      split at hl
      case h_1 u hu =>
        cases hl
        have hcopy : BufferKept j s u :=
          (bufferKept_of_copyLine (s := { s with line := s.line + 1#32 }) hj h.cap_lt hu).congr_left rfl
        have hframe : InRasterFrame fmt u := hf.countLines.copyLine (row_lt_of_inWindow hwindow) hu
        exact hcopy.trans (bufferKept_countLine (hframe.held_ne_tail (hcopy.entry.symm ▸ hheld)))
      case h_2 => cases hl

theorem bufferKept_of_execEvLineRaster {mask : BitVec 8} (hx : execEvLineRaster mask s = .next t) :
    BufferKept j s t := by
  unfold execEvLineRaster at hx
  split at hx
  case isTrue =>
    cases hx
    exact bufferKept_of_view rfl
  case isFalse hacts =>
    simp only [ne_eq, not_or, not_not, Bool.not_eq_false] at hacts
    obtain ⟨he, ha, hf⟩ := hacts
    split at hx
    case isTrue => cases hx
    case isFalse => exact bufferKept_of_rasterLineBody h hheld ⟨h, ha, he, rfl, hf⟩ (finish_next hx)

theorem bufferKept_of_execEvLineJpeg {mask : BitVec 8} (hx : execEvLineJpeg mask s = .next t) : BufferKept j s t := by
  unfold execEvLineJpeg at hx
  split at hx
  case isTrue =>
    cases hx
    exact bufferKept_of_view rfl
  case isFalse hacts =>
    simp only [ne_eq, not_or, not_not, Bool.not_eq_false] at hacts
    obtain ⟨he, ha, hf, -⟩ := hacts
    have hj : j ≠ s.tail := InRasterFrame.held_ne_tail hheld ⟨h, ha, he, rfl, hf⟩
    split at hx
    case isTrue => cases hx
    case isFalse =>
      split at hx
      case isTrue => cases hx
      case isFalse => exact bufferKept_of_jpegLineBody hj h.cap_lt (finish_next hx)

/-- The instructions that R270 does not name keep a HELD buffer. -/
theorem bufferKept_of_exec {i : Instr} (hi : i.opcode ∉ [.snapshot, .freeCurrent, .setupBuffers, .init, .deinit])
    (hx : exec i s = .next t) : BufferKept j s t := by
  have hcap := h.cap_lt
  cases i with
  | snapshot | freeCurrent | setupBuffers | init | deinit => exact absurd (by simp [Instr.opcode]) hi
  | acquire flags => exact bufferKept_of_command hx (bufferKept_acquireBody hheld flags)
  | release flags => exact bufferKept_of_command hx (bufferKept_releaseBody hheld flags)
  | getHead flags => exact bufferKept_of_command hx (bufferKept_getHeadBody hheld flags)
  | getTail flags =>
    exact bufferKept_of_command (body := fun s => respond .ok (some s.tail) false s) hx (bufferKept_of_view rfl)
  | resetBuf idx => exact bufferKept_of_command hx (bufferKept_resetBufBody hheld idx)
  | abort =>
    exact bufferKept_of_command (body := fun s => respond .ok none false (doAbort s)) hx
      ((bufferKept_doAbort hcap).congr rfl)
  | readable ctx =>
    cases hx
    exact bufferKept_of_view rfl
  | active ctx =>
    cases hx
    exact bufferKept_of_view rfl
  | evPkt => exact bufferKept_of_execEvPkt h hheld hx
  | evSof throttleDrop => exact bufferKept_of_execEvSof hheld hcap hx
  | evLineRaster mask => exact bufferKept_of_execEvLineRaster h hheld hx
  | evLineJpeg mask => exact bufferKept_of_execEvLineJpeg h hheld (mask := mask) hx
  | evDmaDone ch => exact bufferKept_of_execEvDmaDone hcap hx
  | evPoll => exact bufferKept_of_execEvPoll hheld hcap hx

end

/-- Settles O55: each of the other instructions writes the buffer at `tail` while the producer has it, a READABLE buffer
at `head`, or the destinations of pending transfers. -/
theorem heldBufferKept : Obligations.HeldBufferKept := by
  intro s t i j h _ hx hi _ hheld
  have hkept : BufferKept j s t := bufferKept_of_exec h hheld hi hx
  exact ⟨hkept.entry, hkept.bytes⟩

end Sys2Proof.Machine
end

section
/-! PROOFS. Session control (44_snapshot_control R250 to R255, R258): what `INIT`, `DEINIT` and `ABORT` leave, in the
words of Safety.lean, and the block without a session. -/

namespace Sys2Proof.Machine

/-! ## An uninitialised block -/

theorem pendingAt_eq_none {s : State} (h : ∀ t, t ∈ s.pending → t = none) (ch : Nat) : s.pendingAt ch = none := by
  cases hp : s.pendingAt ch with
  | none => rfl
  | some r => exact absurd (h _ (mem_pending_of_pendingAt hp)) nofun

/-- A block without a capture, a snapshot and a pending transfer ignores every event (R258, R301). -/
theorem exec_event_of_idle {s : State} {i : Instr} (ha : s.active = false) (hsnap : s.snap = .idle)
    (hpending : ∀ t, t ∈ s.pending → t = none) (hev : i.opcode.code.getLsbD 7 = true) : exec i s = .next s := by
  cases i with
  | evPkt | evSof | evLineRaster | evLineJpeg => exact exec_captureEvent_inactive ha (by simp [Instr.opcode])
  | evDmaDone ch =>
    simp only [exec, execEvDmaDone, pendingAt_eq_none hpending]
    exact ite_self _
  | evPoll => simp only [exec, execEvPoll, hsnap, ignore]
  | _ => exact absurd hev (by simp only [Instr.opcode]; decide)

/-- Settles O9: the invariants of the session leave an uninitialised block without a capture, a snapshot and a transfer,
and every command but the three is refused on admission. -/
theorem notInitialised : Obligations.NotInitialised := by
  intro s i hsession hquiet hs hlegal
  obtain ⟨hpower, -⟩ := hsession
  obtain ⟨ha, hsnap⟩ := hpower hs
  obtain ⟨-, -, -, -, -, -, -, hpending⟩ := hquiet ha
  refine ⟨exec_event_of_idle ha hsnap hpending, fun hcmd hop => ?_⟩
  have hrefused : admission i.opcode i.wellFormed s = some .notInitialised := by
    rw [hlegal]
    exact admission_of_uninitialised hcmd hs hop
  rw [exec_of_admission hrefused, reject_notInitialised]

/-! ## The abort of a running capture -/

theorem abortIfActive_of_active {s : State} (ha : s.active = true) : abortIfActive s = doAbort s := if_pos ha

theorem abortIfActive_of_inactive {s : State} (ha : s.active = false) : abortIfActive s = s := if_neg (by simp [ha])

/-- `INIT` and `DEINIT` run `DoAbort` on a running capture and on no other block (R250, R253). -/
theorem abortIfActive_spec (s : State) :
    (s.active = true → Aborted s (abortIfActive s)) ∧ (s.active = false → abortIfActive s = s) := by
  refine ⟨fun ha => ?_, abortIfActive_of_inactive⟩
  rw [abortIfActive_of_active ha]
  exact doAbort_aborted s

/-- An abort writes neither the parameters nor the descriptor file, and no file changes its size. -/
theorem abortIfActive_files (s : State) :
    (abortIfActive s).prm = s.prm ∧ (abortIfActive s).bufs = s.bufs ∧
      (abortIfActive s).pending.length = s.pending.length := by
  unfold abortIfActive
  split
  · exact ⟨rfl, rfl, List.length_map ..⟩
  · exact ⟨rfl, rfl, rfl⟩

/-! ## INIT -/

theorem reject_illegalConfig (s : State) :
    reject .illegalConfig s = s.answered { rsp := 0x0000FF13#32, rsp2 := 0#32 } := rfl

theorem exec_init_of_idle {s : State} (hsnap : s.snap = .idle) : exec .init s = .next (initBody s) :=
  command_of_admitted (if_neg (not_not.2 hsnap))

/-- The codes of the two engines that a session starts or creates something for (R100). -/
theorem engineOfCode_eq_iff (e : BitVec 2) :
    (engineOfCode e = .serial ↔ e = 1#2) ∧ (engineOfCode e = .raster ↔ e = 2#2) := by
  revert e; decide

theorem configMulti_eq (p : Params) (c : BitVec 160) :
    configMulti p c = decide (c.extractLsb' 0 2 = 1#2 ∧ (c.extractLsb' 112 16).toNat = 4 * p.segPkts) := by
  obtain ⟨hserial, -⟩ := engineOfCode_eq_iff (cfgEngineCode c)
  simp only [configMulti, cfgEngine, hserial, Bool.decide_and]
  rfl

theorem initEffects_eq (p : Params) (c : BitVec 160) :
    initEffects p c =
      if c.extractLsb' 0 2 = 1#2 then [.xferConfigure]
      else if c.extractLsb' 0 2 = 2#2 then (List.range p.nch).map Effect.dmaCreate else [] := by
  obtain ⟨hserial, hraster⟩ := engineOfCode_eq_iff (cfgEngineCode c)
  rw [show c.extractLsb' 0 2 = cfgEngineCode c from rfl]
  simp only [← hserial, ← hraster, initEffects, cfgEngine]
  cases engineOfCode (cfgEngineCode c) <;> rfl

/-- Every register that `INIT` writes (R250, R251). -/
theorem latchConfig_eq (c : BitVec 160) (s : State) :
    latchConfig c s = State.called
      { s with
        initialised := true, cfg := c,
        multi := decide (c.extractLsb' 0 2 = 1#2 ∧ (c.extractLsb' 112 16).toNat = 4 * s.prm.segPkts),
        bufs := List.replicate s.bufs.length ⟨.free, 0#32, 0#3⟩,
        head := 0#8, tail := 0#8, wrValid := false, jpegSize := 0#32,
        active := false, resyncPending := false, expPid := 0#12, expSeg := 0#3,
        line := 0#32, inFrame := false, drop := false, reqEn := false, rr := 0#8,
        dstStride := 0#32, srcOff := 0#32, dstBurst := 1#6, srcBurst := 1#6, dmaEn := false,
        pending := List.replicate s.pending.length none, snap := .idle }
      (if c.extractLsb' 0 2 = 1#2 then [.xferConfigure]
       else if c.extractLsb' 0 2 = 2#2 then (List.range s.prm.nch).map Effect.dmaCreate else []) := by
  rw [← configMulti_eq, ← initEffects_eq, ← List.map_const', ← List.map_const']
  rfl

/-- Settles O19: the records with a fault are the ones `ConfigLegal` fails on. -/
theorem initRefusesIllegalConfig : Obligations.InitRefusesIllegalConfig := by
  intro s hsnap hillegal
  have hrefuse : initBody s = reject .illegalConfig s := if_pos ((illegal_iff ..).2 hillegal)
  rw [exec_init_of_idle hsnap, hrefuse, reject_illegalConfig]

/-- Settles O20: a record without a fault is latched in the state that the abort leaves. -/
theorem initLatchesConfig : Obligations.InitLatchesConfig := by
  refine ⟨rfl, fun s hsnap hlegal => ?_⟩
  intro c
  obtain ⟨haborted, hkept⟩ := abortIfActive_spec s
  obtain ⟨hprm, hbufs, hpending⟩ := abortIfActive_files s
  have hlatch : initBody s = respond .ok none false (latchConfig c (abortIfActive s)) :=
    if_neg (mt (illegal_iff ..).1 hlegal)
  refine ⟨abortIfActive s, haborted, hkept, ?_⟩
  rw [exec_init_of_idle hsnap, hlatch, respond_ok_none_false, latchConfig_eq, hbufs, hpending, hprm]

/-! ## DEINIT and ABORT -/

theorem exec_deinit_of_ready {s : State} (h : ThreadReady s) : exec .deinit s = .next (deinitBody s) :=
  command_of_admitted (admitThread_ready h)

theorem exec_abort_of_ready {s : State} (h : ThreadReady s) :
    exec .abort s = .next ((doAbort s).answered { rsp := 0x0000FF00#32, rsp2 := 0#32 }) :=
  command_of_admitted (body := fun s => respond .ok none false (doAbort s)) (admitThread_ready h)

/-- Settles O21: the pool is freed in the state that the abort leaves. -/
theorem deinitTearsDown : Obligations.DeinitTearsDown := by
  refine ⟨rfl, fun s hready => ?_⟩
  obtain ⟨haborted, hkept⟩ := abortIfActive_spec s
  obtain ⟨-, hbufs, -⟩ := abortIfActive_files s
  refine ⟨abortIfActive s, haborted, hkept, ?_⟩
  rw [exec_deinit_of_ready hready, deinitBody, respond_ok_none_false, freeAll, List.map_const', hbufs]
  rfl

theorem cancelTransfers_of_none (p : Params) {ts : List (Option Transfer)} (h : ∀ t, t ∈ ts → t = none)
    (m : Memory) (d : Nat) : cancelTransfers p ts m d = (m, d) := by
  induction ts with
  | nil => rfl
  | cons t ts ih =>
    obtain ⟨rfl, hts⟩ := List.forall_mem_cons.1 h
    exact ih hts

/-- An abort that finds no transfer to cancel draws no free byte and keeps the records as they are (R226). -/
theorem doAbort_of_no_transfer {s : State} (h : ∀ t, t ∈ s.pending → t = none) :
    doAbort s =
      { emitAll (abortEffects s) s with
        active := false, resyncPending := true, wrValid := false, expPid := 0#12, expSeg := 0#3,
        line := 0#32, inFrame := false, drop := false, reqEn := false, rr := 0#8 } := by
  have hpending : (s.pending.map fun _ => (none : Option Transfer)) = s.pending :=
    (List.map_congr_left fun t ht => (h t ht).symm).trans (List.map_id _)
  simp only [doAbort, cancelTransfers_of_none s.prm h, hpending]
  rfl

/-- An abort leaves no transfer for a second one to cancel, and every register as a second one leaves it (R226). -/
theorem doAbort_doAbort (s : State) (o : Output) :
    ∃ o', doAbort { doAbort s with out := o } = { doAbort s with out := o' } := by
  have hnone : ∀ t, t ∈ (doAbort s).pending → t = none := fun t ht => by
    obtain ⟨-, -, rfl⟩ := List.mem_map.1 ht
    rfl
  exact ⟨_, doAbort_of_no_transfer (s := { doAbort s with out := o }) hnone⟩

/-- Settles O22: the second abort finds the session of the first one, still admitted. -/
theorem abortIsIdempotent : Obligations.AbortIsIdempotent := by
  refine ⟨rfl, fun s hready => ⟨doAbort s, doAbort_aborted s, exec_abort_of_ready hready, ?_⟩⟩
  have hready' : ThreadReady ((doAbort s).answered { rsp := 0x0000FF00#32, rsp2 := 0#32 }) := hready
  obtain ⟨o, ho⟩ := doAbort_doAbort s { (doAbort s).out with rsp := some { rsp := 0x0000FF00#32, rsp2 := 0#32 } }
  refine ⟨{ o with rsp := some { rsp := 0x0000FF00#32, rsp2 := 0#32 } }, ?_⟩
  rw [exec_abort_of_ready hready']
  exact congrArg (fun u : State => Host.Outcome.next (u.answered { rsp := 0x0000FF00#32, rsp2 := 0#32 })) ho

/-! ## ACTIVE -/

/-- Settles O23: `ACTIVE` has no admission check. -/
theorem activeIsPredicate : Obligations.ActiveIsPredicate := by
  refine ⟨rfl, rfl, fun s c => ?_⟩
  have hexec : exec (.active c) s = .next (respond .ok none s.active s) := rfl
  rw [hexec]
  cases s.active with
  | true => rw [respond_ok_none_true]; rfl
  | false => rw [respond_ok_none_false]; rfl

end Sys2Proof.Machine
end

section
/-! PROOFS. The snapshot (44_snapshot_control R256 to R267): how it starts, the resync delay, and the checks of the wait
loop that find a frame. -/

namespace Sys2Proof.Machine

/-! ## A HELD buffer at `head` (R259) -/

/-- A buffer that is returned is FREE, so that the next one at `head` is not HELD (R140). -/
theorem freeHead_head_not_held {s : State}
    (h : after s s.head = s.head ∨ (s.buf (after s s.head)).st ≠ .held) :
    ((freeHead s).buf (freeHead s).head).st ≠ .held := by
  have hhead : (freeHead s).head = after s s.head := rfl
  rw [hhead]
  by_cases hnext : after s s.head = s.head
  · intro hheld
    have hlen : s.head.toNat < s.bufs.length := by
      have hentry := lt_length_of_st_ne_free (s := freeHead s) (i := after s s.head) (by simp [hheld])
      rwa [hnext, freeHead_eq, List.length_set] at hentry
    rw [hnext, buf_eq_of_bufs_eq (t := freeHead s) rfl hlen] at hheld
    cases hheld
  · have hkept : (freeHead s).buf (after s s.head) = s.buf (after s s.head) :=
      buf_setBuf_ne s s.head (after s s.head) _ hnext
    rw [hkept]
    exact h.resolve_left hnext

/-- The rest of a snapshot does not see whether it returned the buffer itself. -/
theorem snapshotBody_freeHead {s : State} (flags : BitVec 8) (hst : (s.buf s.head).st = .held)
    (hnext : ((freeHead s).buf (freeHead s).head).st ≠ .held) :
    snapshotBody flags s = snapshotBody flags (freeHead s) := by
  have hreturn : returnHeld s = freeHead s := if_pos hst
  have hagain : returnHeld (freeHead s) = freeHead s := if_neg hnext
  unfold snapshotBody
  rw [hreturn, hagain]
  rfl

/-- Settles O24: both snapshots return no buffer once the one at `head` is FREE. -/
theorem snapshotReturnsHeld : Obligations.SnapshotReturnsHeld := by
  intro s nb hready hst hnext
  rw [← freeHead_eq, exec_snapshot s nb hready, exec_snapshot (freeHead s) nb hready,
    snapshotBody_freeHead _ hst (freeHead_head_not_held hnext)]

/-! ## The start of a snapshot (R256, R260) -/

theorem exec_evPoll_of_wait {s : State} (hsnap : s.snap = .wait) : exec .evPoll s = finish (waitCheck s) := by
  simp only [exec, execEvPoll, hsnap]

/-- Entering the wait loop is the poll of the state that waits. -/
theorem finish_enterWait (s : State) : finish (enterWait s) = exec .evPoll (waiting s) := by
  rw [enterWait_eq, exec_evPoll_of_wait rfl]

/-- Settles O25: a snapshot over a running capture goes straight to the wait loop. -/
theorem snapshotWhileActive : Obligations.SnapshotWhileActive := by
  refine ⟨rfl, rfl, fun s nb hready ha hst => ?_⟩
  rw [exec_snapshot s nb hready, snapshotBody_not_held s nb hst, if_pos ha, finish_enterWait]

theorem exec_snapshot_inactive {s : State} (nb : Bool) (hready : ThreadReady s) (ha : s.active = false)
    (hst : (s.buf s.head).st ≠ .held) : exec (.snapshot (snapshotFlags nb)) s = finish (arm (requested s nb)) := by
  rw [exec_snapshot s nb hready, snapshotBody_not_held s nb hst, if_neg (by simp [ha])]

section
variable {s : State} (hlen : (cfgNBuffers s.cfg).toNat ≤ s.bufs.length)
include hlen

theorem arm_of_invalid_geometry (hgeometry : ¬ GeometryOk s) :
    arm s = .ok (reject .invalidFrameSize (poolReset s)) := by
  have hinvalid : geometryValid (resetPool s) = false := Bool.eq_false_of_not_eq_true (mt (geo_iff s).1 hgeometry)
  unfold arm
  dsimp only
  rw [if_pos hinvalid, resetPool_eq s hlen]

variable (hgeometry : GeometryOk s)
include hgeometry

theorem arm_of_resync (he : cfgEngine s.cfg = .serial) (hresync : s.resyncPending = true) :
    arm s = .ok (emit .yield { burstsDerived (poolReset s) with tRs := s.port.now, snap := .delay }) := by
  have hvalid : geometryValid (resetPool s) = true := (geo_iff s).2 hgeometry
  unfold arm
  dsimp only
  rw [if_neg (by simp [hvalid]), if_pos ⟨he, hresync⟩, deriveBurst_eq, resetPool_eq s hlen]

theorem arm_of_no_resync (hresync : ¬ (cfgEngine s.cfg = .serial ∧ s.resyncPending = true)) :
    arm s = enterWait (captureStarted (burstsDerived (poolReset s))) := by
  have hvalid : geometryValid (resetPool s) = true := (geo_iff s).2 hgeometry
  unfold arm
  dsimp only
  rw [if_neg (by simp [hvalid]), if_neg hresync, startCapture_eq, deriveBurst_eq, resetPool_eq s hlen]

end

/-- The first check of the wait loop finds no frame in a freshly reset pool, and always goes on (R263). -/
theorem enterWait_answers_of_no_frame {s : State} (hst : (s.buf s.head).st ≠ .readable) :
    ∃ t, finish (enterWait s) = .next t := by
  obtain ⟨t, ht⟩ := waitCheck_no_frame (waiting s) hst
  exact ⟨t, congrArg finish ht⟩

theorem poolReset_head_st {s : State} (hpos : 0 < (cfgNBuffers s.cfg).toNat)
    (hlen : (cfgNBuffers s.cfg).toNat ≤ s.bufs.length) : ((poolReset s).buf (poolReset s).head).st = .free := by
  rw [← resetPool_eq s hlen]
  exact resetPool_st_free hlen hpos

/-- Settles O26: capture starts with a reset pool, in which the first check of the wait loop finds no frame. -/
theorem snapshotArms : Obligations.SnapshotArms := by
  intro s nb hready ha hst hpos hlen hgeometry hresync
  have hfree : ((captureStarted (burstsDerived (poolReset (requested s nb)))).buf
      (captureStarted (burstsDerived (poolReset (requested s nb)))).head).st = .free :=
    poolReset_head_st (s := requested s nb) hpos hlen
  obtain ⟨t, ht⟩ := enterWait_answers_of_no_frame (by rw [hfree]; exact nofun)
  refine ⟨t, ?_, ?_⟩
  · rw [exec_snapshot_inactive nb hready ha hst, arm_of_no_resync (s := requested s nb) hlen hgeometry hresync, ht]
  · rw [← finish_enterWait, ht]

theorem reject_invalidFrameSize (s : State) :
    reject .invalidFrameSize s = s.answered { rsp := 0x0000FF03#32, rsp2 := 0#32 } := rfl

/-- Settles O27: the geometry is tested right after the pool is reset. -/
theorem snapshotInvalidGeometry : Obligations.SnapshotInvalidGeometry := by
  intro s nb hready ha hst hlen hgeometry
  rw [exec_snapshot_inactive nb hready ha hst, arm_of_invalid_geometry (s := requested s nb) hlen hgeometry,
    reject_invalidFrameSize, finish]

/-- The burst registers of every engine but the raster one (R181). -/
theorem burstsDerived_of_serial {s : State} (he : cfgEngine s.cfg = .serial) :
    burstsDerived s =
      { s with dstStride := 0#32, srcOff := 0#32, dstBurst := 1#6, srcBurst := 1#6, dmaEn := false } := by
  rw [← deriveBurst_eq, deriveBurst_of_other (.inl (by simp [he]))]

/-- Settles O28: a pending resync is seen before capture starts. -/
theorem snapshotDelaysResync : Obligations.SnapshotDelaysResync := by
  intro s nb hready ha hst hlen hgeometry he hresync
  have hbursts := burstsDerived_of_serial (s := poolReset (requested s nb)) he
  rw [exec_snapshot_inactive nb hready ha hst, arm_of_resync (s := requested s nb) hlen hgeometry he hresync, hbursts]
  rfl

/-! ## The resync delay (R267) -/

section
variable {s : State} (hsnap : s.snap = .delay)
include hsnap

theorem exec_evPoll_of_delay (hearly : (s.port.now - s.tRs).toNat < s.prm.resync) :
    exec .evPoll s = .next (s.called [.yield]) := by
  have hnot : delayOver s = false := decide_eq_false (Nat.not_le.2 hearly)
  simp only [exec, execEvPoll, hsnap, hnot]
  rfl

theorem exec_evPoll_of_delay_over (hover : s.prm.resync ≤ (s.port.now - s.tRs).toNat) :
    exec .evPoll s = finish (enterWait (captureStarted s)) := by
  have hyes : delayOver s = true := decide_eq_true hover
  simp only [exec, execEvPoll, hsnap, hyes, if_true, startCapture_eq]

end

/-- Settles O29: the branches of the poll; `StartCapture` leaves `head` and its buffer as they are. -/
theorem pollEndsDelay : Obligations.PollEndsDelay := by
  refine ⟨rfl, fun s => ⟨fun hsnap => ?idle, exec_evPoll_of_delay, fun hsnap hover hst => ?ended⟩⟩
  case idle => simp only [exec, execEvPoll, hsnap, ignore]
  case ended =>
    obtain ⟨t, ht⟩ := enterWait_answers_of_no_frame (s := captureStarted s) hst
    exact ⟨t, (exec_evPoll_of_delay_over hsnap hover).trans ht, (finish_enterWait _).symm.trans ht⟩

/-! ## A frame at `head` (R263 to R265) -/

theorem exec_evPoll_of_finalize {s t : State} (hsnap : s.snap = .wait) (hst : (s.buf s.head).st = .readable)
    (hf : finalize s = .ok t) : exec .evPoll s = .next { t with snap := .idle } := by
  rw [exec_evPoll_of_wait hsnap, waitCheck, if_pos hst, hf]
  rfl

theorem buf_holdHead_head {s : State} (hlen : s.head.toNat < s.bufs.length) :
    (holdHead s).buf s.head = { s.buf s.head with st := .held } := buf_setBuf _ _ _ hlen

/-- A frame that is taken and returned at once is FREE (R264). -/
theorem freeHead_holdHead {s : State} (hlen : s.head.toNat < s.bufs.length) :
    freeHead (holdHead s) = freeHead s := by
  have hfreed : (holdHead s).setBuf s.head { (holdHead s).buf s.head with st := .free } =
      s.setBuf s.head { s.buf s.head with st := .free } := by
    rw [buf_holdHead_head hlen]
    exact setBuf_setBuf ..
  exact congrArg (fun u : State => { u with head := ringNext s s.head }) hfreed

/-- Settles O31: an overflown frame is returned as soon as it is taken. -/
theorem pollOverflow : Obligations.PollOverflow := by
  intro s hsnap hst hflag
  have hlen : s.head.toNat < s.bufs.length := lt_length_of_st_ne_free (by simp [hst])
  have hfinalize : finalize s = .ok (reject .overflow (freeHead s)) := by
    rw [finalize, storedFlag_overflow, if_pos hflag, freeHead_holdHead hlen]
  exact exec_evPoll_of_finalize hsnap hst hfinalize

theorem finalize_of_no_overflow {s : State} (hflag : (s.buf s.head).bflags.getLsbD 0 = false) :
    finalize s = describe s.head (holdHead s) := by
  rw [finalize, storedFlag_overflow, if_neg (by rw [hflag]; exact nofun)]

/-- Settles O32: a frame that is not JPEG is described with the size of its configuration. -/
theorem pollDeliversFrame : Obligations.PollDeliversFrame := by
  intro s hsnap hst hflag hformat
  have hlen : s.head.toNat < s.bufs.length := lt_length_of_st_ne_free (by simp [hst])
  have hdescribe : describe s.head (holdHead s) =
      .ok (describeWith s.head (BitVec.ofNat 32 (fixedSize s)) (holdHead s)) := if_neg hformat
  rw [exec_evPoll_of_finalize hsnap hst ((finalize_of_no_overflow hflag).trans hdescribe),
    describeWith_delivered s _ hlen hsnap]
  rfl

/-- The description of a JPEG frame whose first marker is at `m` (R265). -/
theorem describe_of_jpeg {s : State} {i : BitVec 8} {m : Nat} (hformat : cfgPixFmt s.cfg = .jpeg)
    (hin : inStore s.prm i 0 (s.buf i).woff.toNat = true)
    (hmarker : firstMarker s i ((s.buf i).woff.toNat - 1) 0 = some m) :
    describe i s = .ok (describeWith i (BitVec.ofNat 32 (m + 2)) { s with jpegSize := BitVec.ofNat 32 (m + 2) }) := by
  unfold describe
  dsimp only
  rw [if_pos hformat, if_neg (by simp [hin]), hmarker]

/-- Settles O33: taking the frame moves neither its bytes nor its cursor, so that the search finds the first marker. -/
theorem pollDeliversJpeg : Obligations.PollDeliversJpeg := by
  intro s m hsnap hst hflag hformat hhead hwoff hm hff hd9 hfirst
  have hlen : s.head.toNat < s.bufs.length := lt_length_of_st_ne_free (by simp [hst])
  have hcursor : ((holdHead s).buf s.head).woff = (s.buf s.head).woff := by
    rw [buf_holdHead_head hlen]
  have hin : inStore (holdHead s).prm s.head 0 ((holdHead s).buf s.head).woff.toNat = true := by
    rw [hcursor]
    exact (inStore_iff ..).2 ⟨hhead, by rwa [Nat.zero_add]⟩
  have hmarker : firstMarker (holdHead s) s.head (((holdHead s).buf s.head).woff.toNat - 1) 0 = some m := by
    rw [hcursor]
    exact firstMarker_eq (holdHead s) s.head m hff hd9 hfirst _ 0 (Nat.zero_le m) (by omega)
  have hdescribe := describe_of_jpeg (s := holdHead s) hformat hin hmarker
  rw [exec_evPoll_of_finalize hsnap hst ((finalize_of_no_overflow hflag).trans hdescribe)]
  exact congrArg Host.Outcome.next
    (describeWith_delivered { s with jpegSize := BitVec.ofNat 32 (m + 2) } (BitVec.ofNat 32 (m + 2)) hlen hsnap)

/-! ## The sub-format phase shift (R266) -/

/-- Settles O34: each code is one format, and the two laws are branches of the definition. -/
theorem subformatShiftLaws : Obligations.SubformatShiftLaws := by
  intro code sub x y transpose
  refine ⟨fun hcode => ?plain, fun hcode hx hy ht => ?phased⟩
  case plain => rcases hcode with rfl | rfl | rfl <;> rfl
  case phased =>
    have heven (v : BitVec 16) (hv : v.toNat % 2 = 0) : v.getLsbD 0 = false := by
      simp [BitVec.getLsbD, Nat.testBit_zero, hv]
    have hlaw := And.intro (heven x hx) (And.intro (heven y hy) ht)
    rcases hcode with rfl | rfl <;> exact if_pos hlaw

end Sys2Proof.Machine
end

section
/-! PROOFS. Events and the wait loop (60_exceptions R292, R293, R301, R312): the events that are ignored, the checks of
the wait loop that find no frame, and what the interrupt events can write. -/

namespace Sys2Proof.Machine

/-! ## Events that are not acted on (R301) -/

theorem exec_evDmaDone_of_ignored {s : State} {ch : BitVec 8}
    (h : cfgEngine s.cfg ≠ .raster ∨ s.prm.nch ≤ ch.toNat ∨ s.pendingAt ch.toNat = none) :
    exec (.evDmaDone ch) s = .next s := by
  rw [exec, execEvDmaDone]
  rcases or_assoc.2 h with hacts | hnone
  · exact if_pos hacts
  · rw [hnone]
    exact ite_self _

/-- Settles O36: the capture events test what R301 names before anything else, and the completion of a transfer finds no
record of one. -/
theorem eventsIgnored : Obligations.EventsIgnored := by
  intro s
  obtain ⟨-, hpoll⟩ := pollEndsDelay
  obtain ⟨hidle, -⟩ := hpoll s
  exact ⟨fun h => if_pos h, fun h _ => if_pos h, fun h _ => if_pos h, fun h _ => if_pos h,
    fun _ => exec_evDmaDone_of_ignored, hidle⟩

/-! ## A check of the wait loop that finds no frame (R263) -/

section
variable {s : State} (hst : (s.buf s.head).st ≠ .readable)
include hst

theorem waitCheck_of_nonblock (hnonblock : s.nonblock = true) :
    waitCheck s = .ok { reject .wouldBlock s with snap := .idle } := by
  rw [waitCheck, if_neg hst, if_pos hnonblock]

variable (hblocking : s.nonblock = false)
include hblocking

theorem waitCheck_of_timeout (hover : s.timeout.toNat ≤ (s.port.now - s.tStart).toNat) :
    waitCheck s = .ok { reject .captureTimeout (doAbort s) with snap := .idle } := by
  have hyes : timedOut s = true := decide_eq_true hover
  rw [waitCheck, if_neg hst, if_neg (by simp [hblocking]), if_pos hyes]

theorem waitCheck_of_no_timeout (hearly : (s.port.now - s.tStart).toNat < s.timeout.toNat) :
    waitCheck s = .ok (emit .yield s) := by
  have hnot : timedOut s = false := decide_eq_false (Nat.not_le.2 hearly)
  rw [waitCheck, if_neg hst, if_neg (by simp [hblocking]), if_neg (by simp [hnot])]

end

/-- Settles O30: the three branches of the check without a frame. -/
theorem pollWithoutFrame : Obligations.PollWithoutFrame := by
  intro s hsnap hst
  rw [exec_evPoll_of_wait hsnap]
  refine ⟨fun hnonblock => ?wouldBlock, fun hblocking hover => ⟨doAbort s, doAbort_aborted s, ?timeout⟩,
    fun hblocking hearly => ?yield⟩
  case wouldBlock =>
    rw [waitCheck_of_nonblock hst hnonblock]
    rfl
  case timeout =>
    rw [waitCheck_of_timeout hst hblocking hover]
    rfl
  case yield =>
    rw [waitCheck_of_no_timeout hst hblocking hearly]
    rfl

/-! ## What the interrupt events can write (R311, R312) -/

/-- `s` with every register cleared that an interrupt event may write: the buffers and the store, the write cursor and
its token, `active` and `resync_pending`, the engines' counters, the pending records, and the effects and trace labels
of the step. -/
def State.withoutProducer (s : State) : State :=
  { s with
    bufs := [], fb := [], tail := 0#8, wrValid := false, active := false, resyncPending := false,
    expPid := 0#12, expSeg := 0#3, line := 0#32, inFrame := false, drop := false, reqEn := false, rr := 0#8,
    pending := [], draws := 0, out := { s.out with eff := [], tr := [] } }

/-- From `s` to `t` only registers of the producer are written, and of the descriptor file only entry `i`. -/
structure ProducerWrites (i : BitVec 8) (s t : State) : Prop where
  registers : t.withoutProducer = s.withoutProducer
  entries : ∀ j, j ≠ i → t.buf j = s.buf j

namespace ProducerWrites
variable {i : BitVec 8} {s t u : State}

theorem of_bufs_eq (h : t.withoutProducer = s.withoutProducer) (hbufs : t.bufs = s.bufs) : ProducerWrites i s t :=
  ⟨h, fun j _ => by rw [State.buf, State.buf, hbufs]⟩

theorem trans (hst : ProducerWrites i s t) (htu : ProducerWrites i t u) : ProducerWrites i s u :=
  ⟨htu.registers.trans hst.registers, fun j hj => (htu.entries j hj).trans (hst.entries j hj)⟩

/-- A procedure that starts in a state with other registers of the producer. -/
theorem congr_left (h : ProducerWrites i t u) (ht : t.withoutProducer = s.withoutProducer)
    (hbufs : t.bufs = s.bufs) : ProducerWrites i s u :=
  (of_bufs_eq ht hbufs).trans h

theorem setBuf (b : Buf) : ProducerWrites i s (s.setBuf i b) := ⟨rfl, fun j hj => buf_setBuf_ne s i j b hj⟩

end ProducerWrites

/-! The procedures that write the buffer at `tail`; what they leave of the others is `BufferKept`. -/

theorem withoutProducer_commit (checked : Bool) (s : State) :
    (commit checked s).withoutProducer = s.withoutProducer := by
  rw [commit_eq]
  rfl

theorem producerWrites_of_frameStartBuffer {s t : State} (h : frameStartBuffer s = some t) :
    ProducerWrites s.tail s t := by
  refine ⟨?_, fun j hj => (bufferKept_of_frameStartBuffer hj h).entry⟩
  obtain ⟨bufs, wrValid, rfl⟩ := frameStartBuffer_some h
  rfl

theorem producerWrites_advancePacket (s : State) : ProducerWrites s.tail s (advancePacket s) := by
  refine ⟨?_, fun j hj => (bufferKept_advancePacket hj).entry⟩
  by_cases hend : AtFrameEnd s
  · rw [advancePacket_of_frameEnd hend]
    exact withoutProducer_commit true { s with expPid := 0#12, expSeg := 0#3 }
  · rw [advancePacket_of_not_frameEnd hend]
    rfl

theorem withoutProducer_rasterFrameEnd (s : State) : (rasterFrameEnd s).withoutProducer = s.withoutProducer := by
  unfold rasterFrameEnd
  dsimp only
  split
  · rfl
  · exact withoutProducer_commit true _

theorem producerWrites_countLine (s : State) : ProducerWrites s.tail s (countLine s) := by
  refine ⟨?_, fun j hj => (bufferKept_countLine hj).entry⟩
  unfold countLine
  dsimp only
  split
  · exact withoutProducer_rasterFrameEnd _
  · rfl

theorem producerWrites_jpegFrameEnd (s : State) : ProducerWrites s.tail s (jpegFrameEnd s) := by
  refine ⟨?_, fun j hj => (bufferKept_jpegFrameEnd hj).entry⟩
  rw [jpegFrameEnd_eq]
  rfl

/-! The packet engine. -/

theorem producerWrites_of_acceptPacket {s t : State} {pid : BitVec 12} {pay : List Byte}
    (h : acceptPacket pid pay s = .ok t) : ProducerWrites s.tail s t := by
  obtain ⟨u, hplace, rfl⟩ := acceptPacket_ok h
  have hadvance := producerWrites_advancePacket u
  obtain ⟨fb, woff, rfl⟩ := place_ok hplace
  have hplaced : ProducerWrites s.tail s (setWoff { s with fb := fb } s.tail woff) :=
    (ProducerWrites.setBuf (s := { s with fb := fb }) _).congr_left rfl rfl
  exact hplaced.trans hadvance

/-- Steps 2 to 5 of R161: the packet is discarded, capture is aborted, or the packet is accepted. -/
theorem producerWrites_of_packetSteps {s t : State} {d : Packet} {pay : List Byte} (h : packetSteps d pay s = .ok t) :
    ProducerWrites s.tail s t := by
  unfold packetSteps at h
  split at h
  case isTrue =>
    cases h
    exact .of_bufs_eq rfl rfl
  split at h
  case isTrue =>
    cases h
    exact .of_bufs_eq rfl rfl
  split at h
  case isTrue =>
    cases h
    exact .of_bufs_eq rfl rfl
  split at h
  case isTrue =>
    split at h
    case h_1 =>
      cases h
      exact .of_bufs_eq rfl rfl
    case h_2 u hu =>
      have hstart : ProducerWrites s.tail s u := producerWrites_of_frameStartBuffer hu
      obtain ⟨bufs, wrValid, rfl⟩ := frameStartBuffer_some hu
      exact hstart.trans (producerWrites_of_acceptPacket h)
  case isFalse => exact producerWrites_of_acceptPacket h

theorem producerWrites_of_execEvPkt {s t : State} (h : execEvPkt s = .next t) : ProducerWrites s.tail s t := by
  unfold execEvPkt at h
  split at h
  case isTrue =>
    cases h
    exact .of_bufs_eq rfl rfl
  split at h
  case isTrue => cases h
  case isFalse =>
    have hbody := finish_next h
    unfold packetBody at hbody
    split at hbody
    case h_1 =>
      cases hbody
      exact .of_bufs_eq rfl rfl
    case h_2 => exact producerWrites_of_packetSteps hbody
    case h_3 => exact producerWrites_of_packetSteps hbody

/-! The line engine. -/

theorem producerWrites_of_execEvSof {s t : State} {throttleDrop : Bool} (h : execEvSof throttleDrop s = .next t) :
    ProducerWrites s.tail s t := by
  unfold execEvSof at h
  split at h
  case isTrue =>
    cases h
    exact .of_bufs_eq rfl rfl
  split at h
  case h_1 =>
    cases h
    exact .of_bufs_eq rfl rfl
  case h_2 u hu =>
    cases h
    rw [startFrame_eq]
    exact (producerWrites_of_frameStartBuffer hu).trans (.of_bufs_eq rfl rfl)

/-- A successful submission writes the store, the pending records and the effects (R187). -/
theorem recordTransfer_ok {s t : State} {ch : Nat} {r : Transfer} (h : recordTransfer ch r s = .ok t) :
    ∃ fb pending eff, t = { s with fb := fb, pending := pending, out := { s.out with eff := eff } } := by
  unfold recordTransfer at h
  split at h
  case h_1 => exact ⟨s.fb, _, _, (Except.ok.inj h).symm⟩
  case h_2 =>
    split at h
    case h_1 u hu =>
      obtain ⟨-, rfl⟩ := land_ok hu
      exact ⟨_, _, _, (Except.ok.inj h).symm⟩
    case h_2 => cases h

/-- `CopyLine` writes no descriptor and no cursor of the ring (R187, R188). -/
theorem copyLine_ok {s t : State} {row : Nat} {pay : List Byte} {mask : BitVec 8}
    (h : copyLine row pay mask s = .ok t) :
    ∃ fb pending rr drop eff tr,
      t = { s with
        fb := fb, pending := pending, rr := rr, drop := drop, out := { s.out with eff := eff, tr := tr } } := by
  unfold copyLine at h
  split at h
  case isTrue =>
    obtain ⟨-, rfl⟩ := fbWrite_ok h
    exact ⟨_, s.pending, s.rr, s.drop, s.out.eff, s.out.tr, rfl⟩
  case isFalse =>
    unfold copyLineDma at h
    dsimp only at h
    split at h
    case isTrue =>
      obtain ⟨fb, pending, eff, rfl⟩ := recordTransfer_ok h
      exact ⟨fb, pending, _, s.drop, eff, s.out.tr, rfl⟩
    case isFalse => exact ⟨s.fb, s.pending, _, true, _, _, (Except.ok.inj h).symm⟩

theorem producerWrites_of_rasterLineBody {s t : State} {mask : BitVec 8} {pay : List Byte}
    (h : rasterLineBody mask pay s = .ok t) : ProducerWrites s.tail s t := by
  unfold rasterLineBody at h
  dsimp only at h
  split at h
  case isFalse =>
    cases h
    exact .of_bufs_eq rfl rfl
  split at h
  case isTrue =>
    cases h
    exact (producerWrites_countLine { s with line := s.line + 1#32 }).congr_left rfl rfl
  split at h
  case h_1 u hu =>
    cases h
    have hcount := producerWrites_countLine u
    obtain ⟨fb, pending, rr, drop, eff, tr, rfl⟩ := copyLine_ok hu
    exact hcount.congr_left rfl rfl
  case h_2 => cases h

theorem producerWrites_of_execEvLineRaster {s t : State} {mask : BitVec 8} (h : execEvLineRaster mask s = .next t) :
    ProducerWrites s.tail s t := by
  unfold execEvLineRaster at h
  split at h
  case isTrue =>
    cases h
    exact .of_bufs_eq rfl rfl
  split at h
  case isTrue => cases h
  case isFalse => exact producerWrites_of_rasterLineBody (finish_next h)

/-- The descriptor at `tail` is written, and then the frame ends (R192, R193). -/
theorem producerWrites_jpegFrameEnd_setBuf (s : State) (b : Buf) :
    ProducerWrites s.tail s (jpegFrameEnd (s.setBuf s.tail b)) :=
  (ProducerWrites.setBuf b).trans (producerWrites_jpegFrameEnd (s.setBuf s.tail b))

theorem producerWrites_of_jpegAppend {s t : State} {pay : List Byte} (h : jpegAppend pay s = .ok t) :
    ProducerWrites s.tail s t := by
  unfold jpegAppend at h
  dsimp only at h
  split at h
  case h_1 => cases h
  case h_2 u hu =>
    have hend := producerWrites_jpegFrameEnd_setBuf u
    obtain ⟨-, rfl⟩ := fbWrite_ok hu
    cases h
    split
    · exact (hend _).congr_left rfl rfl
    · exact (ProducerWrites.setBuf _).congr_left rfl rfl

theorem producerWrites_of_jpegLineBody {s t : State} {pay : List Byte} (h : jpegLineBody pay s = .ok t) :
    ProducerWrites s.tail s t := by
  unfold jpegLineBody at h
  dsimp only at h
  split at h
  · cases h
    exact (producerWrites_jpegFrameEnd_setBuf { s with line := s.line + 1#32 } _).congr_left rfl rfl
  · exact (producerWrites_of_jpegAppend (s := { s with line := s.line + 1#32 }) h).congr_left rfl rfl

theorem producerWrites_of_execEvLineJpeg {s t : State} {mask : BitVec 8} (h : execEvLineJpeg mask s = .next t) :
    ProducerWrites s.tail s t := by
  unfold execEvLineJpeg at h
  split at h
  case isTrue =>
    cases h
    exact .of_bufs_eq rfl rfl
  split at h
  case isTrue => cases h
  split at h
  case isTrue => cases h
  case isFalse => exact producerWrites_of_jpegLineBody (finish_next h)

theorem producerWrites_of_execEvDmaDone {s t : State} {ch : BitVec 8} (h : execEvDmaDone ch s = .next t) :
    ProducerWrites s.tail s t := by
  unfold execEvDmaDone at h
  split at h
  case isTrue =>
    cases h
    exact .of_bufs_eq rfl rfl
  split at h
  case h_1 =>
    cases h
    exact .of_bufs_eq rfl rfl
  case h_2 =>
    obtain ⟨-, rfl⟩ := land_ok (finish_next h)
    exact .of_bufs_eq rfl rfl

theorem producerWrites_of_exec {s t : State} {i : Instr} (hi : i.opcode ∈ [.evPkt, .evSof, .evLine, .evDmaDone])
    (h : exec i s = .next t) : ProducerWrites s.tail s t := by
  cases i with
  | evPkt => exact producerWrites_of_execEvPkt h
  | evSof throttleDrop => exact producerWrites_of_execEvSof h
  | evLineRaster mask => exact producerWrites_of_execEvLineRaster h
  | evLineJpeg mask => exact producerWrites_of_execEvLineJpeg (mask := mask) h
  | evDmaDone ch => exact producerWrites_of_execEvDmaDone h
  | _ => simp [Instr.opcode] at hi

/-- Settles O52: every procedure of the engines writes registers of the producer and the entry at `tail`, and a commit,
which moves `tail`, is the last of them. -/
theorem interruptEventsStayInProducer : Obligations.InterruptEventsStayInProducer := by
  intro s t i hi hx
  obtain ⟨h, hentries⟩ := producerWrites_of_exec hi hx
  have kept {α : Type} (field : State → α) : field t.withoutProducer = field s.withoutProducer := congrArg field h
  exact ⟨kept State.head, kept State.cfg, kept State.multi, kept State.initialised, kept State.dstStride,
    kept State.srcOff, kept State.dstBurst, kept State.srcBurst, kept State.dmaEn, kept State.snap, kept State.tRs,
    kept State.tStart, kept State.timeout, kept State.nonblock, kept State.jpegSize, kept State.prm,
    kept (·.out.rsp), kept (·.out.desc), hentries⟩

end Sys2Proof.Machine
end

section
/-! PROOFS. The power-on reset (70_reset_and_hazards R331): the registers, and what an input does there. -/

namespace Sys2Proof.Machine

/-- The step's taking of an input at power-on leaves a block that meets the invariant. -/
theorem inv_reset_take (x : Input) (rest : List Input) : Inv (State.reset.take x rest) :=
  inv_take x rest (inv_powerOn params_valid)

/-- Settles O8: the registers are those `State.powerOn` writes, and with an input on the port the block is still an
uninitialised one that meets the invariant, so that R258 says what the input does. -/
theorem powerOnReset : Obligations.PowerOnReset := by
  constructor
  case left => simp [State.reset, State.powerOn, Buf.reset, Output.empty]
  case right =>
    intro x i hlegal
    obtain ⟨-, hsession, hquiet, -⟩ := inv_reset_take x []
    exact notInitialised (State.reset.take x []) i hsession hquiet rfl hlegal

end Sys2Proof.Machine
end

section
/-! PROOFS. Payloads outside the input contract (93_implementation_defined U6, U7, U8): an event that is acted on tests its
payload before anything else, the length first and then, for a JPEG line, the stream length it announces. -/

namespace Sys2Proof.Machine

section
variable {s : State} (hactive : s.active = true)
include hactive

/-- U6: the packet is tested against the length that R102 gives. -/
theorem exec_evPkt_of_length_ne (hengine : cfgEngine s.cfg = .serial)
    (hlen : s.port.pay.length ≠ 4 + s.prm.pktPix * s.prm.pixBytes) : exec .evPkt s = .refused .packetLength := by
  have hacts : ¬ (cfgEngine s.cfg ≠ .serial ∨ s.active = false) := by simp [hengine, hactive]
  exact (if_neg hacts).trans (if_pos hlen)

variable {mask : BitVec 8} (hengine : cfgEngine s.cfg = .raster) (hframe : s.inFrame = true)
include hengine hframe

/-- U8, for a raster line. -/
theorem exec_evLineRaster_of_length_ne (hlen : s.port.pay.length ≠ (cfgLineBytes s.cfg).toNat) :
    exec (.evLineRaster mask) s = .refused .lineLength := by
  have hacts : ¬ (cfgEngine s.cfg ≠ .raster ∨ s.active = false ∨ s.inFrame = false) := by
    simp [hengine, hactive, hframe]
  exact (if_neg hacts).trans (if_pos hlen)

variable (hreq : s.reqEn = true)
include hreq

/-- What an acted-on JPEG line is, whatever its payload (R190, U7, U8). -/
theorem exec_evLineJpeg_of_acts : exec (.evLineJpeg mask) s =
    if s.port.pay.length ≠ (cfgLineBytes s.cfg).toNat then .refused .lineLength
    else if s.port.pay.length < 2 + jpegLen s.port.pay then .refused .jpegPrefix
    else finish (jpegLineBody s.port.pay s) := by
  have hacts : ¬ (cfgEngine s.cfg ≠ .raster ∨ s.active = false ∨ s.inFrame = false ∨ s.reqEn = false) := by
    simp [hengine, hactive, hframe, hreq]
  exact if_neg hacts

/-- U8, for a JPEG line: the stream length it announces is not looked at. -/
theorem exec_evLineJpeg_of_length_ne (hlen : s.port.pay.length ≠ (cfgLineBytes s.cfg).toNat) :
    exec (.evLineJpeg mask) s = .refused .lineLength := by
  rw [exec_evLineJpeg_of_acts hactive hengine hframe hreq, if_pos hlen]

/-- U7: the stream that the line announces does not end within it. -/
theorem exec_evLineJpeg_of_stream_too_long (hlen : s.port.pay.length = (cfgLineBytes s.cfg).toNat)
    (hlong : s.port.pay.length < 2 + jpegLen s.port.pay) : exec (.evLineJpeg mask) s = .refused .jpegPrefix := by
  rw [exec_evLineJpeg_of_acts hactive hengine hframe hreq, if_neg (not_not.2 hlen), if_pos hlong]

end

/-- Settles O35: one refusal per clause of the contract, a line's length being tested under both readings of `EV_LINE`. -/
theorem contractViolationsRefused : Obligations.ContractViolationsRefused := by
  intro s hactive
  refine ⟨exec_evPkt_of_length_ne hactive, fun hengine hframe hlen _ => ⟨?raster, fun hreq => ?jpeg⟩,
    fun hengine hframe hreq hlen hlong _ => ?streamTooLong⟩
  case raster => exact exec_evLineRaster_of_length_ne hactive hengine hframe hlen
  case jpeg => exact exec_evLineJpeg_of_length_ne hactive hengine hframe hreq hlen
  case streamTooLong => exact exec_evLineJpeg_of_stream_too_long hactive hengine hframe hreq hlen hlong

end Sys2Proof.Machine
end
